-- ==== Sys2Proof/Word.lean ====
section
/-!
DEFINITION. The bit-vector types of the block's ports (spec 00_scope.md R5, R6; 10_state.md R24,
R25). Every value is an unsigned bit vector of a stated width; bit 0 is the least significant.
-/

namespace Sys2Proof

/-- One payload byte (R7: "A byte is 8 bits"). -/
abbrev Byte := BitVec 8

/-- An 11-bit standard identifier (R5 `ID_W`, R17, decision D4). -/
abbrev CanId := BitVec 11

/-- A length port: 4 bits, legal frame lengths 0 to 8 (R5 `LEN_W`, decision D3). -/
abbrev LenPort := BitVec 4

/-- A 64-bit data port, payload byte `i` at bits `[8i+7:8i]` (R5 `DATA_W`, R7, decision D3). -/
abbrev DataPort := BitVec 64

/-- A one-bit port, `1#1` meaning the port reads 1. -/
abbrev Bit := BitVec 1

end Sys2Proof
end

