-- ==== Sys2Proof/Machine/Ports.lean ====
section
/-!
DEFINITION. The value types of spec 10_state.md section 2 (R17 to R23), the causes of R54, and the
port bundles of R24, R25 and R47. Plain data only: what the operations do is in the other files.
-/

namespace Sys2Proof.Machine

/-- RawFrame (R17, R19): an identifier and exactly `len` meaningful bytes, so that bytes at or
beyond the length are not part of the value (93_implementation_defined.md U1). -/
structure RawFrame where
  id : CanId
  data : List Byte
  deriving DecidableEq, Repr

/-- `F.len` of a frame value (R17). -/
def RawFrame.len (f : RawFrame) : Nat := f.data.length

/-- ServiceCode (R21): five variants, of which `unknown` is only ever a result. -/
inductive ServiceCode where
  | unknown | read | write1 | write2 | write4
  deriving DecidableEq, Repr

/-- NodeControlCommand (R22): five commands and four heartbeat-reported states. -/
inductive NodeControlCommand where
  | cmdOperational | cmdStopped | cmdPreoperational | cmdResetNode | cmdResetComm
  | stBootup | stStopped | stOperational | stPreoperational
  deriving DecidableEq, Repr

/-- MessageCategory (R23): fourteen values. -/
inductive MessageCategory where
  | noneOfTheAbove | nmt | emcy | lss | sdoReq | sdoResp
  | tpdo1 | tpdo2 | tpdo3 | tpdo4 | rpdo1 | rpdo2 | rpdo3 | rpdo4
  deriving DecidableEq, Repr

/-- The four causes of `Invalid` (R54, R113). -/
inductive Cause where
  | badLen | badCmd | badSvc | badOp
  deriving DecidableEq, Repr

/-- The result of a building operation (R9): "`Frame(F)` or `Invalid(cause)`, never both". -/
inductive BuildResult where
  | frame (f : RawFrame)
  | invalid (c : Cause)
  deriving DecidableEq, Repr

/-- ENC's input ports (R24; format `ENCREQ`, R47). -/
structure EncReq where
  /-- `enc_op[1:0]` -/
  op : BitVec 2
  /-- `enc_id[10:0]` -/
  id : CanId
  /-- `enc_len[3:0]` -/
  len : LenPort
  /-- `enc_data[63:0]` -/
  data : DataPort
  /-- `enc_svc[2:0]` -/
  svc : BitVec 3
  /-- `enc_index[15:0]` -/
  index : BitVec 16
  /-- `enc_sub[7:0]` -/
  sub : Byte
  /-- `enc_cmd[3:0]` -/
  cmd : BitVec 4
  /-- `enc_node[7:0]` -/
  node : Byte
  deriving DecidableEq, Repr

/-- ENC's output ports (R24; format `ENCRES`, R47). -/
structure EncPorts where
  /-- `tx_valid` -/
  valid : Bit
  /-- `tx_err[2:0]` -/
  err : BitVec 3
  /-- `tx_id[10:0]` -/
  id : CanId
  /-- `tx_len[3:0]` -/
  len : LenPort
  /-- `tx_data[63:0]` -/
  data : DataPort
  deriving DecidableEq, Repr

/-- CLS's input ports (R25; format `FRAME`, R48). -/
structure RxPorts where
  /-- `rx_id[10:0]` -/
  id : CanId
  /-- `rx_len[3:0]` -/
  len : LenPort
  /-- `rx_data[63:0]` -/
  data : DataPort
  deriving DecidableEq, Repr

/-- CLS's output ports (R25; format `CLSRES`, R47). -/
structure ClsPorts where
  /-- `cls_match[13:0]` -/
  matchBits : BitVec 14
  /-- `cls_cat[3:0]` -/
  cat : BitVec 4
  /-- `cls_multi` -/
  multi : Bit
  /-- `cls_node[6:0]` -/
  node : BitVec 7
  /-- `sdo_svc[2:0]` -/
  svc : BitVec 3
  /-- `sdo_index[15:0]` -/
  index : BitVec 16
  /-- `sdo_sub[7:0]` -/
  sub : Byte
  deriving DecidableEq, Repr

/-- Operands of the internal packing functions. They "have no ports" (42_packing.md, opening);
these are the model's own places for their operands (log entry 5). -/
structure PackArgs where
  packValue : BitVec 64
  packCount : Nat
  unpackBytes : List Byte
  unpackCount : Nat
  groups : List (List Byte)
  deriving DecidableEq, Repr

/-- Results of the internal packing functions (log entry 5). `none` where there is no result: on
operands outside a function's domain (log entry 12), and in `joined` for the construction contract
violation of R81 (log entry 13). -/
structure PackResults where
  packed : Option (List Byte)
  unpacked : Option (BitVec 64)
  joined : Option (List Byte)
  deriving DecidableEq, Repr

/-- The eight rows of format `ALWAYS` (R66), which have no pattern bits and are named instead. -/
inductive AlwaysRow where
  | classify | nodeId | sdoCode | sdoIndex | sdoSubindex | packLe | unpackLe | concat
  deriving DecidableEq, Repr

/-- Which use the environment makes next, and through which format of opcode_table.json the
decoder reads it (R12, R66; the model's own, log entry 2). -/
inductive Select where
  /-- Format `ENCOP`: evaluate ENC; the row is named by `enc_op`. -/
  | encOp
  /-- Format `RXID`: evaluate CLS; the row is named by `zext_12(rx_id)`. -/
  | rxId
  /-- Format `SDOB0`: evaluate CLS; the row is named by payload byte 0, when `rx_len` is not 0. -/
  | sdoByte0
  /-- Format `ALWAYS`: evaluate the named operation's unit. -/
  | always (row : AlwaysRow)
  deriving DecidableEq, Repr

/-- Everything the environment presents: the two units' input ports, the packing functions'
operands, and which use is made. -/
structure Request where
  sel : Select
  enc : EncReq
  rx : RxPorts
  fn : PackArgs
  deriving DecidableEq, Repr

/-- The hardware units of R2, with the internal functions apart. -/
inductive HwUnit where
  | enc | cls | packing
  deriving DecidableEq, Repr

end Sys2Proof.Machine
end

