-- ==== Sys2Proof/Syntax.lean ====
section
/-!
DEFINITION. One constructor per row of spec/opcode_table.json (30_encoding.md R66). A constructor
carries the operand values its rule names, as the decoder reads them from the input ports
(R56 for ENC; the operand lines of R84 to R108 for CLS; R77 to R80 for the packing functions).
The block has no instruction words (30_encoding.md, opening): an "instruction" is one operation of
R10, or one row of a decode table, applied to its operands.
-/

namespace Sys2Proof

inductive Instr where
  -- Format ENCOP: the building operations (R68, R69, R70).
  /-- `BUILD_GENERIC id, data`: identifier, length `enc_len`, the data port. -/
  | buildGeneric (id : CanId) (len : LenPort) (data : DataPort)
  /-- `BUILD_SDO svc, id, index, sub`: the ServiceCode tag `enc_svc`, identifier, index, subindex. -/
  | buildSdo (svc : BitVec 3) (id : CanId) (index : BitVec 16) (sub : Byte)
  /-- `BUILD_NMT cmd, node`: the NodeControlCommand tag `enc_cmd` and the 8-bit node operand. -/
  | buildNmt (cmd : BitVec 4) (node : Byte)
  -- Format RXID: one row per (predicate, match value) over `zext_12(rx_id)` (R84 to R97).
  | mNmt0 (id : CanId)
  | mNmthb (id : CanId)
  | mEmcy (id : CanId)
  | mLss7E4 (id : CanId)
  | mLss7E5 (id : CanId)
  | mTpdo1 (id : CanId)
  | mTpdo2 (id : CanId)
  | mTpdo3 (id : CanId)
  | mTpdo4 (id : CanId)
  | mRpdo1 (id : CanId)
  | mRpdo2 (id : CanId)
  | mRpdo3 (id : CanId)
  | mRpdo4 (id : CanId)
  | mSdoreq (id : CanId)
  | mSdoresp (id : CanId)
  -- Format SDOB0: the four recognised values of payload byte 0 (R60, R105).
  | svcRead (len : LenPort) (b0 : Byte)
  | svcWrite1 (len : LenPort) (b0 : Byte)
  | svcWrite2 (len : LenPort) (b0 : Byte)
  | svcWrite4 (len : LenPort) (b0 : Byte)
  -- Format ALWAYS, unit CLS: evaluated on every frame (R99, R102, R105, R107, R108).
  | classify (id : CanId)
  | nodeId (id : CanId)
  | sdoCode (len : LenPort) (b0 : Byte)
  | sdoIndex (len : LenPort) (b1 b2 : Byte)
  | sdoSubindex (len : LenPort) (b3 : Byte)
  -- Format ALWAYS, the internal packing functions (R77, R78, R80).
  /-- `PACK_LE(v, n)`; a narrower value is zero-extended to 64 bits by whoever writes it here. -/
  | packLe (v : BitVec 64) (n : Nat)
  /-- `UNPACK_LE(s, n)`. -/
  | unpackLe (s : List Byte) (n : Nat)
  /-- `CONCAT(g1, ..., gk)`; a single byte is the group of that one byte. -/
  | concat (groups : List (List Byte))
  deriving DecidableEq, Repr

end Sys2Proof
end

