-- ==== Sys2Proof/Decode.lean ====
section
/-!
DEFINITION. The decode tables (30_encoding.md R49, R59, R60, R66) and the decoder from the input
ports to an operation, then the encoder written from the same tables. The decoder is total and
names what it rejects. The block fetches nothing (R16): what is decoded is what stands on the ports.
-/

namespace Sys2Proof

open Machine

/-- Payload byte `i` of a data port: `B(d, i) = d[8i+7:8i]` (R7, R48). -/
def byteLane (d : DataPort) (i : Nat) : Byte := d.extractLsb' (8 * i) 8

/-- One masked comparison: `(zext_12(id) & mask) == value` (R59; 43_classifier.md, common
paragraph; conflict C4). -/
def idMatches (mask value : BitVec 12) (id : CanId) : Bool :=
  (id.setWidth 12 &&& mask) == value

/-- A row of format `RXID`: a mask and a match value over `zext_12(rx_id)`, and its operation. -/
structure RxIdRow where
  mask : BitVec 12
  value : BitVec 12
  op : CanId → Instr

/-- The fifteen rows of format `RXID`, in the table's order (R59, R66). -/
def rxIdRows : List RxIdRow :=
  [ ⟨0xFFF, 0x000, .mNmt0⟩, ⟨0xF80, 0x700, .mNmthb⟩, ⟨0xF80, 0x080, .mEmcy⟩,
    ⟨0xFFF, 0x7E4, .mLss7E4⟩, ⟨0xFFF, 0x7E5, .mLss7E5⟩,
    ⟨0xF80, 0x180, .mTpdo1⟩, ⟨0xF80, 0x280, .mTpdo2⟩,
    ⟨0xF80, 0x380, .mTpdo3⟩, ⟨0xF80, 0x480, .mTpdo4⟩,
    ⟨0xF80, 0x200, .mRpdo1⟩, ⟨0xF80, 0x300, .mRpdo2⟩,
    ⟨0xF80, 0x400, .mRpdo3⟩, ⟨0xF80, 0x500, .mRpdo4⟩,
    ⟨0xF80, 0x600, .mSdoreq⟩, ⟨0xF80, 0x580, .mSdoresp⟩ ]

/-- A row of format `SDOB0`: a value of payload byte 0 compared over all eight bits (R60). -/
structure ByteRow where
  value : Byte
  op : LenPort → Byte → Instr

/-- The four rows of format `SDOB0` (R51, R60, R66). -/
def sdoByteRows : List ByteRow :=
  [ ⟨0x40, .svcRead⟩, ⟨0x2F, .svcWrite1⟩, ⟨0x2B, .svcWrite2⟩, ⟨0x23, .svcWrite4⟩ ]

/-- What the decoder rejects, by name. None of the three stops the machine: R67 refuses a reserved
selector with `Invalid(BAD_OP)`, and the absence of a match is an ordinary result for CLS (R104). -/
inductive DecodeError where
  /-- `enc_op` = 3 (R49, R61). -/
  | reservedEncOp
  /-- No row of format `RXID` matches `rx_id`: category NONE (R99). -/
  | noPredicate
  /-- No row of format `SDOB0` matches, or `rx_len` = 0: `SVC_UNKNOWN` (R60, R105). -/
  | noServiceCode
  deriving DecidableEq, Repr

/-- Format `ENCOP` (R49, R67): the operation `enc_op` selects, with the operand ports R56 says it
reads and no other. -/
def decodeEnc (q : EncReq) : Except DecodeError Instr :=
  if q.op = 0 then .ok (.buildGeneric q.id q.len q.data)
  else if q.op = 1 then .ok (.buildSdo q.svc q.id q.index q.sub)
  else if q.op = 2 then .ok (.buildNmt q.cmd q.node)
  else .error .reservedEncOp

/-- Format `RXID` (R59): the row that matches the identifier. -/
def decodeRxId (id : CanId) : Except DecodeError Instr :=
  match rxIdRows.find? (fun r => idMatches r.mask r.value id) with
  | some r => .ok (r.op id)
  | none => .error .noPredicate

/-- Format `SDOB0` (R60): "only when rx_len != 0", the row payload byte 0 matches. -/
def decodeByte0 (len : LenPort) (b0 : Byte) : Except DecodeError Instr :=
  if len = 0 then .error .noServiceCode
  else
    match sdoByteRows.find? (fun r => b0 == r.value) with
    | some r => .ok (r.op len b0)
    | none => .error .noServiceCode

/-- Format `ALWAYS` (R66): the named operation on its operands (R99, R102, R105, R107, R108; R77,
R78, R80). -/
def decodeAlways (row : AlwaysRow) (f : RxPorts) (a : PackArgs) : Instr :=
  match row with
  | .classify => .classify f.id
  | .nodeId => .nodeId f.id
  | .sdoCode => .sdoCode f.len (byteLane f.data 0)
  | .sdoIndex => .sdoIndex f.len (byteLane f.data 1) (byteLane f.data 2)
  | .sdoSubindex => .sdoSubindex f.len (byteLane f.data 3)
  | .packLe => .packLe a.packValue a.packCount
  | .unpackLe => .unpackLe a.unpackBytes a.unpackCount
  | .concat => .concat a.groups

/-- The decoder: the operation a presented request names, or why there is none. -/
def decode (r : Request) : Except DecodeError Instr :=
  match r.sel with
  | .encOp => decodeEnc r.enc
  | .rxId => decodeRxId r.rx.id
  | .sdoByte0 => decodeByte0 r.rx.len (byteLane r.rx.data 0)
  | .always row => .ok (decodeAlways row r.rx r.fn)

/-- Every input port of ENC at 0. -/
def EncReq.zero : EncReq :=
  { op := 0, id := 0, len := 0, data := 0, svc := 0, index := 0, sub := 0, cmd := 0, node := 0 }

/-- Every input port of CLS at 0. -/
def RxPorts.zero : RxPorts := { id := 0, len := 0, data := 0 }

/-- Packing operands inside their domain (R77, R78, R80): one zero byte, one zero byte, one empty
group. -/
def PackArgs.zero : PackArgs :=
  { packValue := 0, packCount := 1, unpackBytes := [0], unpackCount := 1, groups := [[]] }

/-- The request that presents nothing but zeros. -/
def Request.zero : Request :=
  { sel := .encOp, enc := EncReq.zero, rx := RxPorts.zero, fn := PackArgs.zero }

/-- A zero request for ENC with the given ports. -/
def encRequest (q : EncReq) : Request := { Request.zero with enc := q }

/-- A zero request for CLS, read through the given format. -/
def rxRequest (sel : Select) (f : RxPorts) : Request := { Request.zero with sel := sel, rx := f }

/-- A zero request for one packing function. -/
def packRequest (row : AlwaysRow) (a : PackArgs) : Request :=
  { Request.zero with sel := .always row, fn := a }

/-- Bytes placed in the lanes of a data port, from byte position `p` up (R7), zero elsewhere
(R64: "Bytes of a data port not listed are written as zero"). -/
def lanesFrom (p : Nat) : List Byte → DataPort
  | [] => 0
  | b :: bs => (b.setWidth 64 <<< (8 * p)) ||| lanesFrom (p + 1) bs

/-- The encoder: the request that presents the operation with its operands, every other port 0
(R49, R56, R64). -/
def encode : Instr → Request
  | .buildGeneric id len data => encRequest { EncReq.zero with op := 0, id := id, len := len, data := data }
  | .buildSdo svc id index sub =>
    encRequest { EncReq.zero with op := 1, svc := svc, id := id, index := index, sub := sub }
  | .buildNmt cmd node => encRequest { EncReq.zero with op := 2, cmd := cmd, node := node }
  | .mNmt0 id => rxRequest .rxId { RxPorts.zero with id := id }
  | .mNmthb id => rxRequest .rxId { RxPorts.zero with id := id }
  | .mEmcy id => rxRequest .rxId { RxPorts.zero with id := id }
  | .mLss7E4 id => rxRequest .rxId { RxPorts.zero with id := id }
  | .mLss7E5 id => rxRequest .rxId { RxPorts.zero with id := id }
  | .mTpdo1 id => rxRequest .rxId { RxPorts.zero with id := id }
  | .mTpdo2 id => rxRequest .rxId { RxPorts.zero with id := id }
  | .mTpdo3 id => rxRequest .rxId { RxPorts.zero with id := id }
  | .mTpdo4 id => rxRequest .rxId { RxPorts.zero with id := id }
  | .mRpdo1 id => rxRequest .rxId { RxPorts.zero with id := id }
  | .mRpdo2 id => rxRequest .rxId { RxPorts.zero with id := id }
  | .mRpdo3 id => rxRequest .rxId { RxPorts.zero with id := id }
  | .mRpdo4 id => rxRequest .rxId { RxPorts.zero with id := id }
  | .mSdoreq id => rxRequest .rxId { RxPorts.zero with id := id }
  | .mSdoresp id => rxRequest .rxId { RxPorts.zero with id := id }
  | .svcRead len b0 => rxRequest .sdoByte0 { RxPorts.zero with len := len, data := lanesFrom 0 [b0] }
  | .svcWrite1 len b0 => rxRequest .sdoByte0 { RxPorts.zero with len := len, data := lanesFrom 0 [b0] }
  | .svcWrite2 len b0 => rxRequest .sdoByte0 { RxPorts.zero with len := len, data := lanesFrom 0 [b0] }
  | .svcWrite4 len b0 => rxRequest .sdoByte0 { RxPorts.zero with len := len, data := lanesFrom 0 [b0] }
  | .classify id => rxRequest (.always .classify) { RxPorts.zero with id := id }
  | .nodeId id => rxRequest (.always .nodeId) { RxPorts.zero with id := id }
  | .sdoCode len b0 =>
    rxRequest (.always .sdoCode) { RxPorts.zero with len := len, data := lanesFrom 0 [b0] }
  | .sdoIndex len b1 b2 =>
    rxRequest (.always .sdoIndex) { RxPorts.zero with len := len, data := lanesFrom 1 [b1, b2] }
  | .sdoSubindex len b3 =>
    rxRequest (.always .sdoSubindex) { RxPorts.zero with len := len, data := lanesFrom 3 [b3] }
  | .packLe v n => packRequest .packLe { PackArgs.zero with packValue := v, packCount := n }
  | .unpackLe s n => packRequest .unpackLe { PackArgs.zero with unpackBytes := s, unpackCount := n }
  | .concat gs => packRequest .concat { PackArgs.zero with groups := gs }

/-- The request `r` with an opcode-table word presented in place of what its unit's ports held
(log entry 15). At most 8 bits: the value 0 to 3 of `enc_op`, else payload byte 0 of a one-byte
frame. 9 to 16 bits: the identifier on `rx_id`. No bits: the first row of format `ALWAYS`. A word
that is no value of those ports presents nothing. -/
def presentWord (nbits w : Nat) (r : Request) : Option Request :=
  if nbits = 0 then
    if w = 0 then some { r with sel := .always .classify, rx := RxPorts.zero } else none
  else if nbits ≤ 8 then
    if w < 4 then
      some { r with sel := .encOp, enc := { EncReq.zero with op := BitVec.ofNat 2 w } }
    else if w < 256 then
      some { r with sel := .sdoByte0, rx := { id := 0, len := 1, data := BitVec.ofNat 64 w } }
    else none
  else if nbits ≤ 16 then
    if w < 2048 then
      some { r with sel := .rxId, rx := { RxPorts.zero with id := BitVec.ofNat 11 w } }
    else none
  else none

/-- The instruction the decoder reads from an opcode-table word (log entry 15). -/
def decodeTableWord (nbits w : Nat) : Option Instr :=
  match presentWord nbits w Request.zero with
  | some r =>
    match decode r with
    | .ok i => some i
    | .error _ => none
  | none => none

end Sys2Proof
end

