-- ==== Sys2Proof/Machine/State.lean ====
section
/-!
DEFINITION. The state of the model. The block itself "holds no state between uses" (10_state.md
R13): no register, flag, counter, memory or program counter exists (R15, R16). What a run of the
model needs is what stands on the ports: the inputs the environment presents, and the outputs the block
drives for them. Those are the fields here, and nothing else (log entry 1). Every presentation of
inputs and every step leaves each output at its value for the inputs present (Machine/Outputs.lean).
-/

namespace Sys2Proof.Machine

/-- What stands on the block's ports. -/
structure State where
  /-- The inputs the environment presents, and which use it makes (R24, R25; log entry 2). -/
  req : Request
  /-- ENC's outputs (R24). -/
  tx : EncPorts
  /-- CLS's outputs (R25). -/
  cls : ClsPorts
  /-- Results of the internal packing functions (R77 to R81; log entry 5). -/
  fn : PackResults
  deriving DecidableEq, Repr

/-- Faults: none. "Nothing in the block is mapped to `fault` in the trap sense or to `stuck`"
(93_implementation_defined.md; R117, R121), so no meaning can raise one, which is safe. -/
inductive Fault where
  deriving DecidableEq, Repr

/-- Refusals. -/
inductive Refusal where
  /-- Raised by exec's arm for an instruction that has no meaning yet (no arm, in this model);
  safe. -/
  | notModelled (mnemonic : String)
  /-- Raised by `PACK_LE` and `UNPACK_LE` on a byte count outside 1 to 8: "outside it the model
  refuses" (decision D19); safe. -/
  | byteCountOutsideDomain
  /-- Raised by `UNPACK_LE` on a sequence of fewer than `n` bytes, which R78 excludes from its
  operands; safe. -/
  | sequenceTooShort
  /-- Raised by `CONCAT` on no group at all, which R80 excludes (`k >= 1`); safe. -/
  | noGroups
  deriving DecidableEq, Repr

/-- ENC's outputs for all-zero inputs: `BUILD_GENERIC` of length 0 is `Invalid(BAD_LEN)` (R68,
R114). -/
def EncPorts.atReset : EncPorts := { valid := 0, err := 1, id := 0, len := 0, data := 0 }

/-- CLS's outputs for all-zero inputs: identifier 0x000 is NMT through `M_NMT0`, and a frame of
length 0 has service code unknown, index 0 and subindex 0 (R84, R99, R102, R105, R107, R108). -/
def ClsPorts.atReset : ClsPorts :=
  { matchBits := 1, cat := 1, multi := 0, node := 0, svc := 0, index := 0, sub := 0 }

/-- The packing results for the operands of `PackArgs.zero` (R77, R78, R80). -/
def PackResults.atReset : PackResults := { packed := some [0], unpacked := some 0, joined := some [] }

/-- The model's starting state. The block has no reset and nothing has a reset value (R27, R124);
the inputs are driven to zero (DESIGN CHOICE, log entry 3) and every output has "the value the
operation rules give for those inputs" (R125; log entry 4). -/
def State.reset : State :=
  { req := Request.zero, tx := EncPorts.atReset, cls := ClsPorts.atReset, fn := PackResults.atReset }

end Sys2Proof.Machine
end

