-- ==== Sys2Proof/Config.lean ====
section
/-!
DEFINITION. What an instance of the block fixes (spec 00_scope.md R5, 10_state.md R30): constants
chosen when the block is built, which no operation writes. The ones the spec leaves OPEN
(decisions D8 and D23) are opaque here: no proof can see their value, so a theorem about the model
holds for every choice of them (30_encoding.md R53).
-/

namespace Sys2Proof

/-- The wire bytes of the four NMT commands whose value the source does not give (R5, R53,
decision D8). Log entry 10. -/
structure NmtWires where
  /-- `NMT_WIRE_OPERATIONAL` -/
  operational : Byte
  /-- `NMT_WIRE_STOPPED` -/
  stopped : Byte
  /-- `NMT_WIRE_PREOPERATIONAL` -/
  preoperational : Byte
  /-- `NMT_WIRE_RESET_COMM` -/
  resetComm : Byte
  deriving DecidableEq, Repr, Inhabited

/-- The wire bytes of the four heartbeat-state variants (R5, R53, decision D8); "no operation of
this block reads them". Log entry 11. -/
structure HbWires where
  /-- `HB_WIRE_BOOTUP` -/
  bootup : Byte
  /-- `HB_WIRE_STOPPED` -/
  stopped : Byte
  /-- `HB_WIRE_OPERATIONAL` -/
  operational : Byte
  /-- `HB_WIRE_PREOPERATIONAL` -/
  preoperational : Byte
  deriving DecidableEq, Repr, Inhabited

/-- The instance's NMT command wire bytes: OPEN (decision D8), a free value of the configuration. -/
opaque Config.nmtWires : NmtWires

/-- The instance's heartbeat-state wire bytes: OPEN (decision D8), a free value. -/
opaque Config.hbWires : HbWires

/-- `T_PD`, the worst-case propagation delay: OPEN (R5, R132, decision D23); "no rule of the model
depends on `T_PD`", and nothing here reads it. Log entry 16. -/
opaque Config.propagationDelay : Nat

/-- The default values R5 and R53 give for the four command parameters: general knowledge of
CANopen (93_implementation_defined.md G1), not the source's. A claim that uses them says so; the
machine itself never does. -/
def defaultNmtWires : NmtWires :=
  { operational := 0x01, stopped := 0x02, preoperational := 0x80, resetComm := 0x82 }

/-- The default values R5 and R53 give for the four heartbeat parameters
(93_implementation_defined.md G2): general knowledge, read by nothing. -/
def defaultHbWires : HbWires :=
  { bootup := 0x00, stopped := 0x04, operational := 0x05, preoperational := 0x7F }

/-- `NMT_WIRE_RESET_NODE`, the one NMT wire byte the source gives (R5, R53, example S2). -/
def nmtWireResetNode : Byte := 0x81

/-- `MAX_LEN`, the largest legal frame length (R5). -/
def maxLen : Nat := 8

end Sys2Proof
end

