-- ==== Sys2Proof/WellFormed.lean ====
section
/-!
DEFINITION. Which operations are well formed: the operand domains of the packing functions (R77,
R78, R80) and, for a row of a decode table, that its operand is one the row matches (R59, R60).
The builders have no ill-formed operands: R61 gives every port value a behaviour.
-/

namespace Sys2Proof

/-- A byte count in the domain of `PACK_LE` and `UNPACK_LE`: `1 <= n <= 8` (R77, R78). -/
abbrev countInDomain (n : Nat) : Prop := 1 ≤ n ∧ n ≤ maxLen

/-- The operands of an operation are ones its row and its rule admit. -/
def WellFormed : Instr → Bool
  | .buildGeneric _ _ _ | .buildSdo _ _ _ _ | .buildNmt _ _ => true
  | .mNmt0 id => idMatches 0xFFF 0x000 id
  | .mNmthb id => idMatches 0xF80 0x700 id
  | .mEmcy id => idMatches 0xF80 0x080 id
  | .mLss7E4 id => idMatches 0xFFF 0x7E4 id
  | .mLss7E5 id => idMatches 0xFFF 0x7E5 id
  | .mTpdo1 id => idMatches 0xF80 0x180 id
  | .mTpdo2 id => idMatches 0xF80 0x280 id
  | .mTpdo3 id => idMatches 0xF80 0x380 id
  | .mTpdo4 id => idMatches 0xF80 0x480 id
  | .mRpdo1 id => idMatches 0xF80 0x200 id
  | .mRpdo2 id => idMatches 0xF80 0x300 id
  | .mRpdo3 id => idMatches 0xF80 0x400 id
  | .mRpdo4 id => idMatches 0xF80 0x500 id
  | .mSdoreq id => idMatches 0xF80 0x600 id
  | .mSdoresp id => idMatches 0xF80 0x580 id
  | .svcRead len b0 => len != 0 && b0 == 0x40
  | .svcWrite1 len b0 => len != 0 && b0 == 0x2F
  | .svcWrite2 len b0 => len != 0 && b0 == 0x2B
  | .svcWrite4 len b0 => len != 0 && b0 == 0x23
  | .classify _ | .nodeId _ | .sdoCode _ _ | .sdoIndex _ _ _ | .sdoSubindex _ _ => true
  | .packLe _ n => decide (countInDomain n)
  | .unpackLe s n => decide (countInDomain n) && decide (n ≤ s.length)
  | .concat gs => !gs.isEmpty

end Sys2Proof
end

