-- ==== Sys2Proof/Machine/Operands.lean ====
section
/-!
DEFINITION. Operand forms: the tags of enumerations on ports (30_encoding.md R50, R52), their wire
values (R51, R53), and the shared packing functions as values (42_packing.md R77 to R81).
-/

namespace Sys2Proof.Machine

/-- The ServiceCode a 3-bit tag stands for; tags 5, 6, 7 are reserved (R50). -/
def svcOfTag (tag : BitVec 3) : Option ServiceCode :=
  if tag = 0 then some .unknown
  else if tag = 1 then some .read
  else if tag = 2 then some .write1
  else if tag = 3 then some .write2
  else if tag = 4 then some .write4
  else none

/-- The tag of a ServiceCode (R50). -/
def svcTag : ServiceCode → BitVec 3
  | .unknown => 0
  | .read => 1
  | .write1 => 2
  | .write2 => 3
  | .write4 => 4

/-- The wire value of a ServiceCode; `unknown` "has no wire value" (R21, R51). -/
def svcWire : ServiceCode → Option Byte
  | .unknown => none
  | .read => some 0x40
  | .write1 => some 0x2F
  | .write2 => some 0x2B
  | .write4 => some 0x23

/-- `SVC_WIRE(tag)` of R69, where `BUILD_SDO` has one: tags 1 to 4. -/
def svcWireOfTag (tag : BitVec 3) : Option Byte := (svcOfTag tag).bind svcWire

/-- The NodeControlCommand a 4-bit tag stands for; 5 to 7 and 12 to 15 are reserved (R52). -/
def cmdOfTag (tag : BitVec 4) : Option NodeControlCommand :=
  if tag = 0 then some .cmdOperational
  else if tag = 1 then some .cmdStopped
  else if tag = 2 then some .cmdPreoperational
  else if tag = 3 then some .cmdResetNode
  else if tag = 4 then some .cmdResetComm
  else if tag = 8 then some .stBootup
  else if tag = 9 then some .stStopped
  else if tag = 10 then some .stOperational
  else if tag = 11 then some .stPreoperational
  else none

/-- The tag of a NodeControlCommand (R52). -/
def cmdTag : NodeControlCommand → BitVec 4
  | .cmdOperational => 0
  | .cmdStopped => 1
  | .cmdPreoperational => 2
  | .cmdResetNode => 3
  | .cmdResetComm => 4
  | .stBootup => 8
  | .stStopped => 9
  | .stOperational => 10
  | .stPreoperational => 11

/-- "Only the five command variants are legal arguments to frame construction" (R22, R52). -/
def isCommand : NodeControlCommand → Bool
  | .cmdOperational | .cmdStopped | .cmdPreoperational | .cmdResetNode | .cmdResetComm => true
  | .stBootup | .stStopped | .stOperational | .stPreoperational => false

/-- The wire value of each of the nine variants (R22, R53): one is the source's, eight are the
instance's parameters. -/
def cmdWire (w : NmtWires) (h : HbWires) : NodeControlCommand → Byte
  | .cmdOperational => w.operational
  | .cmdStopped => w.stopped
  | .cmdPreoperational => w.preoperational
  | .cmdResetNode => nmtWireResetNode
  | .cmdResetComm => w.resetComm
  | .stBootup => h.bootup
  | .stStopped => h.stopped
  | .stOperational => h.operational
  | .stPreoperational => h.preoperational

/-- `NMT_WIRE(tag)` of R53: "not defined for other tags" than 0 to 4. -/
def nmtWire (w : NmtWires) (tag : BitVec 4) : Option Byte :=
  match cmdOfTag tag with
  | some c => if isCommand c then some (cmdWire w Config.hbWires c) else none
  | none => none

/-- `PACK_LE(v, n)` as a value: byte `i` is `v[8i+7:8i]`, for `i < n` (R77). -/
def packBytes (v : BitVec 64) (n : Nat) : List Byte := (List.range n).map (byteLane v)

/-- A byte sequence read little-endian, zero-extended to 64 bits: the first byte least significant
(R33, R78). On at most eight bytes this is also how a payload stands on a data port, the lanes
beyond it zero (R7, R71). -/
def leValue : List Byte → BitVec 64
  | [] => 0
  | b :: bs => b.setWidth 64 ||| (leValue bs <<< 8)

/-- `UNPACK_LE(s, n)` as a value, on the first `n` bytes of `s` (R78). -/
def unpackValue (s : List Byte) (n : Nat) : BitVec 64 := leValue (s.take n)

/-- `CONCAT` as a value: the groups in order (R80). -/
def joinGroups (groups : List (List Byte)) : List Byte := groups.flatten

/-- `CONCAT` into a buffer of eight bytes: a longer total is a construction contract violation, from
which no frame may be made (R81, decision D20). -/
def joinIntoBuffer (groups : List (List Byte)) : Option (List Byte) :=
  if (joinGroups groups).length ≤ maxLen then some (joinGroups groups) else none

end Sys2Proof.Machine
end

