-- ==== Sys2Proof/Machine/Flags.lean ====
section
/-!
DEFINITION. The outputs that report a condition or a classification (10_state.md R29): the cause
codes of `tx_err` (R54), the fourteen predicates and their bits of `cls_match`, the category code
`cls_cat`, and `cls_multi` (30_encoding.md R55; 43_classifier.md R84 to R101). No flag is kept.
-/

namespace Sys2Proof.Machine

/-- The code of a cause on `tx_err` (R54, R113). -/
def causeCode : Cause → BitVec 3
  | .badLen => 1
  | .badCmd => 2
  | .badSvc => 3
  | .badOp => 4

/-- The predicate `M_NMT0` (R84). -/
def predNmt0 (id : CanId) : Bool := idMatches 0xFFF 0x000 id
/-- The predicate `M_NMTHB` (R85). -/
def predNmthb (id : CanId) : Bool := idMatches 0xF80 0x700 id
/-- The predicate `M_EMCY` (R86). -/
def predEmcy (id : CanId) : Bool := idMatches 0xF80 0x080 id
/-- The predicate `M_LSS`: "one predicate with two match values" (R87). -/
def predLss (id : CanId) : Bool := idMatches 0xFFF 0x7E4 id || idMatches 0xFFF 0x7E5 id
/-- The predicate `M_TPDO1` (R88). -/
def predTpdo1 (id : CanId) : Bool := idMatches 0xF80 0x180 id
/-- The predicate `M_TPDO2` (R89). -/
def predTpdo2 (id : CanId) : Bool := idMatches 0xF80 0x280 id
/-- The predicate `M_TPDO3` (R90). -/
def predTpdo3 (id : CanId) : Bool := idMatches 0xF80 0x380 id
/-- The predicate `M_TPDO4` (R91). -/
def predTpdo4 (id : CanId) : Bool := idMatches 0xF80 0x480 id
/-- The predicate `M_RPDO1` (R92). -/
def predRpdo1 (id : CanId) : Bool := idMatches 0xF80 0x200 id
/-- The predicate `M_RPDO2` (R93). -/
def predRpdo2 (id : CanId) : Bool := idMatches 0xF80 0x300 id
/-- The predicate `M_RPDO3` (R94). -/
def predRpdo3 (id : CanId) : Bool := idMatches 0xF80 0x400 id
/-- The predicate `M_RPDO4` (R95). -/
def predRpdo4 (id : CanId) : Bool := idMatches 0xF80 0x500 id
/-- The predicate `M_SDOREQ` (R96). -/
def predSdoreq (id : CanId) : Bool := idMatches 0xF80 0x600 id
/-- The predicate `M_SDORESP` (R97). -/
def predSdoresp (id : CanId) : Bool := idMatches 0xF80 0x580 id

/-- The fourteen predicates, each evaluated on its own (R98), in the bit order of `cls_match`
(R55). -/
def predicates (id : CanId) : List Bool :=
  [ predNmt0 id, predNmthb id, predEmcy id, predLss id,
    predTpdo1 id, predTpdo2 id, predTpdo3 id, predTpdo4 id,
    predRpdo1 id, predRpdo2 id, predRpdo3 id, predRpdo4 id,
    predSdoreq id, predSdoresp id ]

/-- A list of bits as a vector, the first in bit 0. -/
def bitsToVector : List Bool → BitVec 14
  | [] => 0
  | b :: bs => (if b then 1 else 0) ||| (bitsToVector bs <<< 1)

/-- `cls_match[13:0]` for an identifier (R55, R98). -/
def matchVector (id : CanId) : BitVec 14 := bitsToVector (predicates id)

/-- Bit `k` of `cls_match` driven to `b`, the others as they are. -/
def setMatchBit (k : Nat) (b : Bool) (m : BitVec 14) : BitVec 14 :=
  (m &&& ~~~((1 : BitVec 14) <<< k)) ||| (if b then (1 : BitVec 14) <<< k else 0)

/-- `CODE(k)`, the category code of predicate `k`: the last column of R55, by bit number. -/
def categoryCodes : List (BitVec 4) := [1, 1, 2, 3, 8, 9, 10, 11, 12, 13, 14, 15, 4, 5]

/-- `CODE(k)` for a bit number 0 to 13 (R55). -/
def categoryCode (k : Nat) : BitVec 4 := categoryCodes.getD k 0

/-- `cls_cat`: the bitwise OR of the codes of all matching predicates (R99). -/
def categoryOf (m : BitVec 14) : BitVec 4 :=
  (List.range 14).foldl (fun cat k => if m.getLsbD k then cat ||| categoryCode k else cat) 0

/-- How many bits of `cls_match` are 1. -/
def matchCount (m : BitVec 14) : Nat := (List.range 14).countP (fun k => m.getLsbD k)

/-- `cls_multi`: 1 when two or more bits of `cls_match` are 1 (R101). -/
def multiOf (m : BitVec 14) : Bit := if 2 ≤ matchCount m then 1 else 0

/-- The MessageCategory a `cls_cat` code stands for; codes 6 and 7 "are never produced" (R23,
R55). -/
def categoryOfCode (code : BitVec 4) : Option MessageCategory :=
  [ some .noneOfTheAbove, some .nmt, some .emcy, some .lss, some .sdoReq, some .sdoResp, none, none,
    some .tpdo1, some .tpdo2, some .tpdo3, some .tpdo4,
    some .rpdo1, some .rpdo2, some .rpdo3, some .rpdo4 ].getD code.toNat none

end Sys2Proof.Machine
end

