-- ==== Sys2Proof/Machine/Ops.lean ====
section
/-!
DEFINITION. The named operations over the ports: what a building operation drives (41_frame_builder.md
R71), the one refusal outcome (60_exceptions.md R112 to R117), single outputs of CLS, and results of the
packing functions.
-/

namespace Sys2Proof.Machine

/-- ENC's outputs for a produced frame (R71): the bytes at or beyond the length driven to zero
(decision D14). -/
def framePorts (f : RawFrame) : EncPorts :=
  { valid := 1, err := 0, id := f.id, len := BitVec.ofNat 4 f.len, data := leValue f.data }

/-- ENC's outputs for `Invalid(cause)` (R114): no frame, and zeros on its ports (decision D12). -/
def invalidPorts (c : Cause) : EncPorts :=
  { valid := 0, err := causeCode c, id := 0, len := 0, data := 0 }

/-- ENC's outputs for the result of a building operation (R9, R71, R114). -/
def resultPorts : BuildResult → EncPorts
  | .frame f => framePorts f
  | .invalid c => invalidPorts c

/-- Drive ENC's outputs with the result of a building operation. -/
def driveBuild (r : BuildResult) (s : State) : State := { s with tx := resultPorts r }

/-- `raise Invalid(cause)`: the block's only exception. There is no entry to take (R117): no state
is saved, no mode changes, control goes nowhere, and hence there is no return (R118). -/
def raiseInvalid (c : Cause) (s : State) : State := driveBuild (.invalid c) s

/-- Drive one bit of `cls_match`. -/
def driveMatch (k : Nat) (b : Bool) (s : State) : State :=
  { s with cls := { s.cls with matchBits := setMatchBit k b s.cls.matchBits } }

/-- Drive `cls_match`, `cls_cat` and `cls_multi` from a predicate vector (R99, R101). -/
def driveCategory (m : BitVec 14) (s : State) : State :=
  { s with cls := { s.cls with matchBits := m, cat := categoryOf m, multi := multiOf m } }

/-- Drive `cls_node` (R102). -/
def driveNode (n : BitVec 7) (s : State) : State := { s with cls := { s.cls with node := n } }

/-- Drive `sdo_svc` with the tag of a ServiceCode (R105). -/
def driveSvc (c : ServiceCode) (s : State) : State := { s with cls := { s.cls with svc := svcTag c } }

/-- Drive `sdo_index` (R107). -/
def driveIndex (v : BitVec 16) (s : State) : State := { s with cls := { s.cls with index := v } }

/-- Drive `sdo_sub` (R108). -/
def driveSub (v : Byte) (s : State) : State := { s with cls := { s.cls with sub := v } }

/-- The result of `PACK_LE`. -/
def putPacked (bytes : List Byte) (s : State) : State :=
  { s with fn := { s.fn with packed := some bytes } }

/-- The result of `UNPACK_LE`. -/
def putUnpacked (v : BitVec 64) (s : State) : State :=
  { s with fn := { s.fn with unpacked := some v } }

/-- The result of `CONCAT`, `none` for a construction contract violation (R81). -/
def putJoined (r : Option (List Byte)) (s : State) : State := { s with fn := { s.fn with joined := r } }

/-- The unit an operation belongs to (R2; 42_packing.md for the internal functions). -/
def unitOf : Instr → HwUnit
  | .buildGeneric _ _ _ | .buildSdo _ _ _ _ | .buildNmt _ _ => .enc
  | .mNmt0 _ | .mNmthb _ | .mEmcy _ | .mLss7E4 _ | .mLss7E5 _ => .cls
  | .mTpdo1 _ | .mTpdo2 _ | .mTpdo3 _ | .mTpdo4 _ => .cls
  | .mRpdo1 _ | .mRpdo2 _ | .mRpdo3 _ | .mRpdo4 _ => .cls
  | .mSdoreq _ | .mSdoresp _ => .cls
  | .svcRead _ _ | .svcWrite1 _ _ | .svcWrite2 _ _ | .svcWrite4 _ _ => .cls
  | .classify _ | .nodeId _ | .sdoCode _ _ | .sdoIndex _ _ _ | .sdoSubindex _ _ => .cls
  | .packLe _ _ | .unpackLe _ _ | .concat _ => .packing

/-- The unit a use evaluates. -/
def unitOfSelect : Select → HwUnit
  | .encOp => .enc
  | .rxId | .sdoByte0 => .cls
  | .always .classify | .always .nodeId => .cls
  | .always .sdoCode | .always .sdoIndex | .always .sdoSubindex => .cls
  | .always .packLe | .always .unpackLe | .always .concat => .packing

end Sys2Proof.Machine
end

