-- ==== Sys2Proof/Machine/Builder.lean ====
section
/-!
DEFINITION. The frame builder, unit ENC (41_frame_builder.md R68 to R76): the three building
operations as values, then their meanings on the ports.
-/

namespace Sys2Proof.Machine

/-- `BUILD_GENERIC` (R68): refused unless `1 <= n <= 8`; the first `n` bytes copied verbatim. -/
def buildGeneric (id : CanId) (n : LenPort) (d : DataPort) : BuildResult :=
  if n = 0 ∨ 8 < n then .invalid .badLen
  else .frame { id := id, data := packBytes d n.toNat }

/-- `BUILD_SDO` (R69, R57): refused unless the tag has a wire value; eight bytes, the identifier
unchanged (decision D9). -/
def buildSdo (svc : BitVec 3) (id : CanId) (index : BitVec 16) (sub : Byte) : BuildResult :=
  match svcWireOfTag svc with
  | none => .invalid .badSvc
  | some w =>
    .frame { id := id, data := joinGroups [[w], packBytes (index.setWidth 64) 2, [sub, 0, 0, 0, 0]] }

/-- `BUILD_NMT` (R70, R58): refused unless the tag is one of the five commands; identifier 0, two
bytes, the node copied unchecked (decision D11). -/
def buildNmt (w : NmtWires) (cmd : BitVec 4) (node : Byte) : BuildResult :=
  match nmtWire w cmd with
  | none => .invalid .badCmd
  | some b => .frame { id := 0, data := [b, node] }

/-- `BUILD_GENERIC id, data` (R68, R71, R114). -/
def execBuildGeneric (id : CanId) (len : LenPort) (data : DataPort) (s : State) :
    Host.Outcome State Fault Refusal :=
  .next (driveBuild (buildGeneric id len data) s)

/-- `BUILD_SDO svc, id, index, sub` (R69, R71, R114). -/
def execBuildSdo (svc : BitVec 3) (id : CanId) (index : BitVec 16) (sub : Byte) (s : State) :
    Host.Outcome State Fault Refusal :=
  .next (driveBuild (buildSdo svc id index sub) s)

/-- `BUILD_NMT cmd, node` (R70, R71, R114), with the instance's wire bytes (R53). -/
def execBuildNmt (cmd : BitVec 4) (node : Byte) (s : State) : Host.Outcome State Fault Refusal :=
  .next (driveBuild (buildNmt Config.nmtWires cmd node) s)

end Sys2Proof.Machine
end

