-- ==== Sys2Proof/Machine/Classifier.lean ====
section
/-!
DEFINITION. `CLASSIFY` and `NODE_ID`, unit CLS (43_classifier.md R98 to R104).
-/

namespace Sys2Proof.Machine

/-- `NODE_ID`: `rx_id & 0x7F`, the low seven bits (R102). -/
def nodeIdOf (id : CanId) : BitVec 7 := (id &&& 0x7F).setWidth 7

/-- `CLASSIFY` (R99, R101): all fourteen predicates, the category and `cls_multi`. The line
`CLASSIFY id, len, [...]` of R64 is a whole evaluation of CLS, that is one step (log entry 9). -/
def execClassify (id : CanId) (s : State) : Host.Outcome State Fault Refusal :=
  .next (driveCategory (matchVector id) s)

/-- `NODE_ID` (R102), computed "for every frame whatever its category". -/
def execNodeId (id : CanId) (s : State) : Host.Outcome State Fault Refusal :=
  .next (driveNode (nodeIdOf id) s)

end Sys2Proof.Machine
end

