-- ==== Sys2Proof/Machine/Extract.lean ====
section
/-!
DEFINITION. The SDO field extractors, unit CLS (44_sdo_extract.md R105 to R110), and the four
recognised values of payload byte 0, rows of format `SDOB0` (30_encoding.md R60). Each extractor
checks the length before a byte can matter (R38) and none can fail.
-/

namespace Sys2Proof.Machine

/-- `SDO_CODE` (R105): unknown for an empty frame, else by comparison of the whole of byte 0. -/
def sdoCode (len : LenPort) (b0 : Byte) : ServiceCode :=
  if len = 0 then .unknown
  else if b0 = 0x40 then .read
  else if b0 = 0x2F then .write1
  else if b0 = 0x2B then .write2
  else if b0 = 0x23 then .write4
  else .unknown

/-- `SDO_INDEX` (R107): 0 for fewer than three bytes, else bytes 1 and 2, little-endian. -/
def sdoIndex (len : LenPort) (b1 b2 : Byte) : BitVec 16 :=
  if len < 3 then 0 else (unpackValue [b1, b2] 2).setWidth 16

/-- `SDO_SUBINDEX` (R108): 0 for fewer than four bytes, else byte 3. -/
def sdoSubindex (len : LenPort) (b3 : Byte) : Byte := if len < 4 then 0 else b3

/-- One row of format `SDOB0` on a frame: where it matches, its ServiceCode; where it does not, what
the remaining comparisons of `SDO_CODE` give, whose order is immaterial (R105; log entry 8). -/
def svcRow (c : ServiceCode) (len : LenPort) (b0 : Byte) : ServiceCode :=
  if len ≠ 0 ∧ svcWire c = some b0 then c else sdoCode len b0

/-- `SVC_READ`, byte 0x40 (R60, R105). -/
def execSvcRead (len : LenPort) (b0 : Byte) (s : State) : Host.Outcome State Fault Refusal :=
  .next (driveSvc (svcRow .read len b0) s)

/-- `SVC_WRITE1`, byte 0x2F (R60, R105). -/
def execSvcWrite1 (len : LenPort) (b0 : Byte) (s : State) : Host.Outcome State Fault Refusal :=
  .next (driveSvc (svcRow .write1 len b0) s)

/-- `SVC_WRITE2`, byte 0x2B (R60, R105). -/
def execSvcWrite2 (len : LenPort) (b0 : Byte) (s : State) : Host.Outcome State Fault Refusal :=
  .next (driveSvc (svcRow .write2 len b0) s)

/-- `SVC_WRITE4`, byte 0x23 (R60, R105). -/
def execSvcWrite4 (len : LenPort) (b0 : Byte) (s : State) : Host.Outcome State Fault Refusal :=
  .next (driveSvc (svcRow .write4 len b0) s)

/-- `SDO_CODE` (R105). -/
def execSdoCode (len : LenPort) (b0 : Byte) (s : State) : Host.Outcome State Fault Refusal :=
  .next (driveSvc (sdoCode len b0) s)

/-- `SDO_INDEX` (R107). -/
def execSdoIndex (len : LenPort) (b1 b2 : Byte) (s : State) : Host.Outcome State Fault Refusal :=
  .next (driveIndex (sdoIndex len b1 b2) s)

/-- `SDO_SUBINDEX` (R108). -/
def execSdoSubindex (len : LenPort) (b3 : Byte) (s : State) : Host.Outcome State Fault Refusal :=
  .next (driveSub (sdoSubindex len b3) s)

end Sys2Proof.Machine
end

