-- ==== Sys2Proof/Machine/Packing.lean ====
section
/-!
DEFINITION. The shared packing functions as operations of their own (42_packing.md R77 to R81). The
block reaches them only inside `BUILD_SDO` and `SDO_INDEX`; exposed on their own they refuse operands
outside the domain their rules define (decision D19, log entry 12).
-/

namespace Sys2Proof.Machine

/-- `PACK_LE(v, n)` (R77); bits of `v` at and above `8n` do not appear. -/
def execPackLe (v : BitVec 64) (n : Nat) (s : State) : Host.Outcome State Fault Refusal :=
  if countInDomain n then .next (putPacked (packBytes v n) s) else .refused .byteCountOutsideDomain

/-- `UNPACK_LE(s, n)` (R78), of a sequence of at least `n` bytes. -/
def execUnpackLe (bytes : List Byte) (n : Nat) (s : State) : Host.Outcome State Fault Refusal :=
  if countInDomain n then
    if n ≤ bytes.length then .next (putUnpacked (unpackValue bytes n) s)
    else .refused .sequenceTooShort
  else .refused .byteCountOutsideDomain

/-- `CONCAT(g1, ..., gk)` (R80), `k >= 1`; a total above eight bytes is an invalid construction, not a
stop (R81, decision D20, log entry 13). -/
def execConcat (groups : List (List Byte)) (s : State) : Host.Outcome State Fault Refusal :=
  if groups = [] then .refused .noGroups else .next (putJoined (joinIntoBuffer groups) s)

end Sys2Proof.Machine
end

