-- ==== Sys2Proof/Machine/Predicates.lean ====
section
/-!
DEFINITION. The fourteen identifier predicates of unit CLS (43_classifier.md R84 to R97), one meaning
per row of format `RXID`. A predicate "is a total function of `rx_id`" and drives one bit of
`cls_match`. The rows `M_LSS_7E4` and `M_LSS_7E5` name one predicate, `M_LSS`, "their disjunction"
(R87), so each drives bit 3 with the whole predicate (log entry 7).
-/

namespace Sys2Proof.Machine

/-- `M_NMT0`: drives `cls_match[0]` (R84). -/
def execMNmt0 (id : CanId) (s : State) : Host.Outcome State Fault Refusal :=
  .next (driveMatch 0 (predNmt0 id) s)

/-- `M_NMTHB`: drives `cls_match[1]` (R85). -/
def execMNmthb (id : CanId) (s : State) : Host.Outcome State Fault Refusal :=
  .next (driveMatch 1 (predNmthb id) s)

/-- `M_EMCY`: drives `cls_match[2]` (R86). -/
def execMEmcy (id : CanId) (s : State) : Host.Outcome State Fault Refusal :=
  .next (driveMatch 2 (predEmcy id) s)

/-- `M_LSS_7E4`: drives `cls_match[3]` (R87). -/
def execMLss7E4 (id : CanId) (s : State) : Host.Outcome State Fault Refusal :=
  .next (driveMatch 3 (predLss id) s)

/-- `M_LSS_7E5`: drives `cls_match[3]` (R87). -/
def execMLss7E5 (id : CanId) (s : State) : Host.Outcome State Fault Refusal :=
  .next (driveMatch 3 (predLss id) s)

/-- `M_TPDO1`: drives `cls_match[4]` (R88). -/
def execMTpdo1 (id : CanId) (s : State) : Host.Outcome State Fault Refusal :=
  .next (driveMatch 4 (predTpdo1 id) s)

/-- `M_TPDO2`: drives `cls_match[5]` (R89). -/
def execMTpdo2 (id : CanId) (s : State) : Host.Outcome State Fault Refusal :=
  .next (driveMatch 5 (predTpdo2 id) s)

/-- `M_TPDO3`: drives `cls_match[6]` (R90). -/
def execMTpdo3 (id : CanId) (s : State) : Host.Outcome State Fault Refusal :=
  .next (driveMatch 6 (predTpdo3 id) s)

/-- `M_TPDO4`: drives `cls_match[7]` (R91). -/
def execMTpdo4 (id : CanId) (s : State) : Host.Outcome State Fault Refusal :=
  .next (driveMatch 7 (predTpdo4 id) s)

/-- `M_RPDO1`: drives `cls_match[8]` (R92). -/
def execMRpdo1 (id : CanId) (s : State) : Host.Outcome State Fault Refusal :=
  .next (driveMatch 8 (predRpdo1 id) s)

/-- `M_RPDO2`: drives `cls_match[9]` (R93). -/
def execMRpdo2 (id : CanId) (s : State) : Host.Outcome State Fault Refusal :=
  .next (driveMatch 9 (predRpdo2 id) s)

/-- `M_RPDO3`: drives `cls_match[10]` (R94). -/
def execMRpdo3 (id : CanId) (s : State) : Host.Outcome State Fault Refusal :=
  .next (driveMatch 10 (predRpdo3 id) s)

/-- `M_RPDO4`: drives `cls_match[11]` (R95). -/
def execMRpdo4 (id : CanId) (s : State) : Host.Outcome State Fault Refusal :=
  .next (driveMatch 11 (predRpdo4 id) s)

/-- `M_SDOREQ`: drives `cls_match[12]` (R96). -/
def execMSdoreq (id : CanId) (s : State) : Host.Outcome State Fault Refusal :=
  .next (driveMatch 12 (predSdoreq id) s)

/-- `M_SDORESP`: drives `cls_match[13]` (R97). -/
def execMSdoresp (id : CanId) (s : State) : Host.Outcome State Fault Refusal :=
  .next (driveMatch 13 (predSdoresp id) s)

end Sys2Proof.Machine
end

