-- ==== Sys2Proof/Machine/Dispatch.lean ====
section
/-!
DEFINITION. The dispatch from an operation to its meaning, one arm per constructor.
-/

namespace Sys2Proof.Machine

def exec (i : Instr) (s : State) : Host.Outcome State Fault Refusal :=
  match i with
  | .buildGeneric id len data => Sys2Proof.Machine.execBuildGeneric id len data s
  | .buildSdo svc id index sub => Sys2Proof.Machine.execBuildSdo svc id index sub s
  | .buildNmt cmd node => Sys2Proof.Machine.execBuildNmt cmd node s
  | .mNmt0 id => Sys2Proof.Machine.execMNmt0 id s
  | .mNmthb id => Sys2Proof.Machine.execMNmthb id s
  | .mEmcy id => Sys2Proof.Machine.execMEmcy id s
  | .mLss7E4 id => Sys2Proof.Machine.execMLss7E4 id s
  | .mLss7E5 id => Sys2Proof.Machine.execMLss7E5 id s
  | .mTpdo1 id => Sys2Proof.Machine.execMTpdo1 id s
  | .mTpdo2 id => Sys2Proof.Machine.execMTpdo2 id s
  | .mTpdo3 id => Sys2Proof.Machine.execMTpdo3 id s
  | .mTpdo4 id => Sys2Proof.Machine.execMTpdo4 id s
  | .mRpdo1 id => Sys2Proof.Machine.execMRpdo1 id s
  | .mRpdo2 id => Sys2Proof.Machine.execMRpdo2 id s
  | .mRpdo3 id => Sys2Proof.Machine.execMRpdo3 id s
  | .mRpdo4 id => Sys2Proof.Machine.execMRpdo4 id s
  | .mSdoreq id => Sys2Proof.Machine.execMSdoreq id s
  | .mSdoresp id => Sys2Proof.Machine.execMSdoresp id s
  | .svcRead len b0 => Sys2Proof.Machine.execSvcRead len b0 s
  | .svcWrite1 len b0 => Sys2Proof.Machine.execSvcWrite1 len b0 s
  | .svcWrite2 len b0 => Sys2Proof.Machine.execSvcWrite2 len b0 s
  | .svcWrite4 len b0 => Sys2Proof.Machine.execSvcWrite4 len b0 s
  | .classify id => Sys2Proof.Machine.execClassify id s
  | .nodeId id => Sys2Proof.Machine.execNodeId id s
  | .sdoCode len b0 => Sys2Proof.Machine.execSdoCode len b0 s
  | .sdoIndex len b1 b2 => Sys2Proof.Machine.execSdoIndex len b1 b2 s
  | .sdoSubindex len b3 => Sys2Proof.Machine.execSdoSubindex len b3 s
  | .packLe v n => Sys2Proof.Machine.execPackLe v n s
  | .unpackLe bytes n => Sys2Proof.Machine.execUnpackLe bytes n s
  | .concat groups => Sys2Proof.Machine.execConcat groups s

end Sys2Proof.Machine
end

