-- ==== Sys2Proof/Machine/Outputs.lean ====
section
/-!
DEFINITION. What the block drives for the inputs present. "Every output is a combinational function of
the inputs present at the same moment" (10_state.md R13), and "each output has, at every moment ... the
value the operation rules give for the inputs present at that moment" (R27, R125): `settle` is that
function, and the environment's side of the ports (R26, R122, R127, R130) goes through it, so that new
inputs never stand beside old outputs (log entry 1).
-/

namespace Sys2Proof.Machine

/-- `ENC()` of R67: exactly the operation `enc_op` selects, or `Invalid(BAD_OP)`. -/
def encResult (q : EncReq) : BuildResult :=
  if q.op = 0 then buildGeneric q.id q.len q.data
  else if q.op = 1 then buildSdo q.svc q.id q.index q.sub
  else if q.op = 2 then buildNmt Config.nmtWires q.cmd q.node
  else .invalid .badOp

/-- ENC's outputs for its inputs (R67, R71, R114). -/
def encOutputs (q : EncReq) : EncPorts := resultPorts (encResult q)

/-- CLS's outputs for its inputs: "CLS performs all of its operations in every evaluation" (R16, R98,
R99, R101, R102, R105, R107, R108). -/
def clsOutputs (f : RxPorts) : ClsPorts :=
  { matchBits := matchVector f.id
    cat := categoryOf (matchVector f.id)
    multi := multiOf (matchVector f.id)
    node := nodeIdOf f.id
    svc := svcTag (sdoCode f.len (byteLane f.data 0))
    index := sdoIndex f.len (byteLane f.data 1) (byteLane f.data 2)
    sub := sdoSubindex f.len (byteLane f.data 3) }

/-- The packing functions' results for their operands (R77, R78, R80, R81); none outside a domain. -/
def packOutputs (a : PackArgs) : PackResults :=
  { packed := if countInDomain a.packCount then some (packBytes a.packValue a.packCount) else none
    unpacked :=
      if countInDomain a.unpackCount ∧ a.unpackCount ≤ a.unpackBytes.length then
        some (unpackValue a.unpackBytes a.unpackCount)
      else none
    joined := if a.groups = [] then none else joinIntoBuffer a.groups }

/-- The block with the inputs `r` present: every output at its value for them, whatever was present
before (R13, R27, R42). -/
def settle (r : Request) : State :=
  { req := r, tx := encOutputs r.enc, cls := clsOutputs r.rx, fn := packOutputs r.fn }

/-! The environment's side (R122): it presents inputs, and takes a built frame only when there is
one. These are how one use follows another (R12); no step does them (log entry 18). -/

/-- The environment presents an ENC request, all of its ports together (R129). -/
def presentEnc (q : EncReq) (s : State) : State := settle { s.req with sel := .encOp, enc := q }

/-- The environment presents a frame to CLS, all of its ports together (R26, R129), for the use
R64 writes `CLASSIFY id, len, [...]`. -/
def presentRx (f : RxPorts) (s : State) : State :=
  settle { s.req with sel := .always .classify, rx := f }

/-- The environment makes a use of the inputs that stand, read through the given format (log entry 2). -/
def presentUse (sel : Select) (s : State) : State := settle { s.req with sel := sel }

/-- Operands for one of the internal packing functions (log entry 5). -/
def presentPacking (row : AlwaysRow) (a : PackArgs) (s : State) : State :=
  settle { s.req with sel := .always row, fn := a }

/-- The frame on ENC's outputs, if there is one (R26): "when `tx_valid = 0` there is no frame". Only
the first `tx_len` bytes belong to it (R19), and those are what is transmitted (R122; log entry 17). -/
def builtFrame (t : EncPorts) : Option RawFrame :=
  if t.valid = 1 then some { id := t.id, data := packBytes t.data t.len.toNat } else none

/-- The environment wires `tx_*` to `rx_*` (R130); not when there is no frame (R114). -/
def loopBack (s : State) : Option State :=
  if s.tx.valid = 1 then
    some (presentRx { id := s.tx.id, len := s.tx.len, data := s.tx.data } s)
  else none

end Sys2Proof.Machine
end

