-- ==== Sys2Proof/Machine/Evaluate.lean ====
section
/-!
DEFINITION. One evaluation (00_scope.md R12, decision D25) of the unit selected, on the inputs present.
Every output of the block stands at its value for those inputs (10_state.md R13, R27), and the operation
the decoder names drives its own outputs: ENC's one selected operation (41_frame_builder.md R67), or a
row of CLS, which "performs all of its operations in every evaluation" (R16). What stood on the outputs
before has no part in it (R42; log entry 6).
-/

namespace Sys2Proof.Machine

/-- What an evaluation does where the decoder names no operation: a reserved selector raises
`Invalid(BAD_OP)` (R67, R113; log entry 19), and an identifier or byte that matches no row leaves
CLS with category NONE or service code unknown (R104, R105). -/
def runRejected (e : DecodeError) (s : State) : State :=
  match e with
  | .reservedEncOp => raiseInvalid .badOp s
  | .noPredicate | .noServiceCode => s

/-- One evaluation on the inputs present (R12). -/
def evaluate (r : Request) : Host.Outcome State Fault Refusal :=
  match decode r with
  | .ok i => exec i (settle r)
  | .error e => .next (runRejected e (settle r))

/-- The environment presents an opcode-table word (log entry 15), or, where the word is no value of the
ports, leaves the inputs as they are. -/
def presentTableWord (nbits w : Nat) (s : State) : State :=
  settle ((presentWord nbits w s.req).getD s.req)

end Sys2Proof.Machine
end

