-- ==== Sys2Proof/Machine/Step.lean ====
section
/-!
DEFINITION. One step of the machine: one evaluation of one unit (00_scope.md R12, decision D25).
-/

namespace Sys2Proof.Machine

/-- One step: a function of the inputs present and of nothing else in the state (R13, R42). -/
def step (s : State) : Host.Outcome State Fault Refusal := evaluate s.req

/-- `s` with an opcode-table word presented for the next evaluation. -/
def State.withFetchWord (s : State) (nbits w : Nat) : State := presentTableWord nbits w s

end Sys2Proof.Machine
end

