-- ==== Sys2Proof/Safety.lean ====
section
/-!
DEFINITION. What counts as a safe run, in the terms the claims use. The reference functions here are
written a second time from the spec's own port-level tables (30_encoding.md R55, R57, R58, R61;
20_memory.md R39), not from the model's meanings, so that an agreement between the two says something.
-/

namespace Sys2Proof.Machine

/-- ENC's outputs for a refusal with a cause code (R114). -/
def encRefused (code : BitVec 3) : EncPorts := { valid := 0, err := code, id := 0, len := 0, data := 0 }

/-- ENC's outputs for a produced frame (R71). -/
def encProduced (id : CanId) (len : LenPort) (data : DataPort) : EncPorts :=
  { valid := 1, err := 0, id := id, len := len, data := data }

/-- The lowest `n` bytes of a data port, the others zero (R71). -/
def lowBytes (d : DataPort) (n : Nat) : DataPort := d &&& (BitVec.allOnes 64 >>> (64 - 8 * n))

/-- `tx_data` of `BUILD_SDO`: bytes 4 to 7 zero, the subindex, the index unswapped, and the wire
byte lowest (R57). -/
def sdoWord (wire : Byte) (index : BitVec 16) (sub : Byte) : DataPort := 0#32 ++ sub ++ index ++ wire

/-- `tx_data` of `BUILD_NMT` (R58). -/
def nmtWord (wire node : Byte) : DataPort := 0#48 ++ node ++ wire

/-- All of ENC as one function from its input ports to its output ports, from the tables of R49, R50,
R52, R53, R57, R58 and R61. -/
def encReference (q : EncReq) : EncPorts :=
  match q.op.toNat with
  | 0 => if 1 ≤ q.len.toNat ∧ q.len.toNat ≤ 8 then encProduced q.id q.len (lowBytes q.data q.len.toNat)
         else encRefused 1
  | 1 =>
    match q.svc.toNat with
    | 1 => encProduced q.id 8 (sdoWord 0x40 q.index q.sub)
    | 2 => encProduced q.id 8 (sdoWord 0x2F q.index q.sub)
    | 3 => encProduced q.id 8 (sdoWord 0x2B q.index q.sub)
    | 4 => encProduced q.id 8 (sdoWord 0x23 q.index q.sub)
    | _ => encRefused 3
  | 2 =>
    match q.cmd.toNat with
    | 0 => encProduced 0 2 (nmtWord Config.nmtWires.operational q.node)
    | 1 => encProduced 0 2 (nmtWord Config.nmtWires.stopped q.node)
    | 2 => encProduced 0 2 (nmtWord Config.nmtWires.preoperational q.node)
    | 3 => encProduced 0 2 (nmtWord 0x81 q.node)
    | 4 => encProduced 0 2 (nmtWord Config.nmtWires.resetComm q.node)
    | _ => encRefused 2
  | _ => encRefused 4

/-- The identifier map of R39: `cls_match` and `cls_cat` for each range of identifiers (codes and bit
numbers of R55). -/
def identifierMap (n : Nat) : BitVec 14 × BitVec 4 :=
  if n = 0x000 then (0x0001, 1)
  else if n ≤ 0x07F then (0x0000, 0)
  else if n ≤ 0x0FF then (0x0004, 2)
  else if n ≤ 0x17F then (0x0000, 0)
  else if n ≤ 0x1FF then (0x0010, 8)
  else if n ≤ 0x27F then (0x0100, 12)
  else if n ≤ 0x2FF then (0x0020, 9)
  else if n ≤ 0x37F then (0x0200, 13)
  else if n ≤ 0x3FF then (0x0040, 10)
  else if n ≤ 0x47F then (0x0400, 14)
  else if n ≤ 0x4FF then (0x0080, 11)
  else if n ≤ 0x57F then (0x0800, 15)
  else if n ≤ 0x5FF then (0x2000, 5)
  else if n ≤ 0x67F then (0x1000, 4)
  else if n ≤ 0x6FF then (0x0000, 0)
  else if n ≤ 0x77F then (0x0002, 1)
  else if n ≤ 0x7E3 then (0x0000, 0)
  else if n ≤ 0x7E5 then (0x0008, 3)
  else (0x0000, 0)

/-- The tag `sdo_svc` for a length and payload byte 0, as a number (R50, R105). -/
def svcTagReference (len b0 : Nat) : BitVec 3 :=
  if len = 0 then 0
  else if b0 = 0x40 then 1 else if b0 = 0x2F then 2 else if b0 = 0x2B then 3 else if b0 = 0x23 then 4 else 0

/-- All of CLS as one function from its input ports to its output ports: R39, R101, R102, R105, and,
on the ports, `sdo_index = rx_data[23:8]` (R107) and `sdo_sub = rx_data[31:24]` (R108). -/
def clsReference (f : RxPorts) : ClsPorts :=
  { matchBits := (identifierMap f.id.toNat).1
    cat := (identifierMap f.id.toNat).2
    multi := 0
    node := f.id.extractLsb' 0 7
    svc := svcTagReference f.len.toNat (f.data.extractLsb' 0 8).toNat
    index := if f.len.toNat < 3 then 0 else f.data.extractLsb' 8 16
    sub := if f.len.toNat < 4 then 0 else f.data.extractLsb' 24 8 }

/-- The rows of the source's classification table, one per predicate, in the bit order of `cls_match`:
mask, match values, category code (43_classifier.md, table; R55, R98). -/
def classRows : List (BitVec 12 × List (BitVec 12) × BitVec 4) :=
  [ (0xFFF, [0x000], 1), (0xF80, [0x700], 1), (0xF80, [0x080], 2), (0xFFF, [0x7E4, 0x7E5], 3),
    (0xF80, [0x180], 8), (0xF80, [0x280], 9), (0xF80, [0x380], 10), (0xF80, [0x480], 11),
    (0xF80, [0x200], 12), (0xF80, [0x300], 13), (0xF80, [0x400], 14), (0xF80, [0x500], 15),
    (0xF80, [0x600], 4), (0xF80, [0x580], 5) ]

/-- A row of the table matches an identifier (R59). -/
def rowMatches (row : BitVec 12 × List (BitVec 12) × BitVec 4) (id : CanId) : Prop :=
  (id.setWidth 12 &&& row.1) ∈ row.2.1

/-- An operation of CLS answers a next state in which it has driven bit `k` of `cls_match` to say
whether `p` holds of the identifier, and nothing else at all has changed. -/
def DrivesOnlyBit (op : CanId → Instr) (k : Nat) (p : CanId → Prop) : Prop :=
  ∀ (id : CanId) (s : State), ∃ m : BitVec 14,
    exec (op id) s = .next { s with cls := { s.cls with matchBits := m } } ∧
    (m.getLsbD k = true ↔ p id) ∧
    ∀ j, j ≠ k → m.getLsbD j = s.cls.matchBits.getLsbD j

/-- `CLASSIFY` gives an identifier of which `p` holds the category code `code`. -/
def GivesCategory (p : CanId → Prop) (code : BitVec 4) : Prop :=
  ∀ (id : CanId) (s : State), p id → ∃ t, exec (.classify id) s = .next t ∧ t.cls.cat = code

/-- A predicate with mask 0xF80: it drives bit `k` alone, compares `rx_id[10:7]` with `fn`, holds of
the 128 identifiers from `16 * 8 * fn` up, and has the category code `code` (R85, R86, R88 to R97). -/
def RangePredicate (op : CanId → Instr) (k : Nat) (value : BitVec 12) (fn : BitVec 4) (lo : Nat)
    (code : BitVec 4) : Prop :=
  DrivesOnlyBit op k (fun id => id.setWidth 12 &&& 0xF80 = value) ∧
  (∀ id : CanId, (id.setWidth 12 &&& 0xF80 = value ↔ id.extractLsb' 7 4 = fn) ∧
    (id.setWidth 12 &&& 0xF80 = value ↔ lo ≤ id.toNat ∧ id.toNat ≤ lo + 127)) ∧
  GivesCategory (fun id => id.setWidth 12 &&& 0xF80 = value) code

/-- An operation of a length and payload byte 0 answers a next state in which `sdo_svc` is the tag R60
and R105 give, and nothing else has changed. -/
def DecodesServiceCode (op : LenPort → Byte → Instr) : Prop :=
  ∀ (len : LenPort) (b0 : Byte) (s : State), ∃ tag : BitVec 3,
    exec (op len b0) s = .next { s with cls := { s.cls with svc := tag } } ∧
    (len = 0 → tag = 0) ∧
    (len ≠ 0 → b0 = 0x40 → tag = 1) ∧ (len ≠ 0 → b0 = 0x2F → tag = 2) ∧
    (len ≠ 0 → b0 = 0x2B → tag = 3) ∧ (len ≠ 0 → b0 = 0x23 → tag = 4) ∧
    (len ≠ 0 → b0 ≠ 0x40 → b0 ≠ 0x2F → b0 ≠ 0x2B → b0 ≠ 0x23 → tag = 0)

/-- The operations that drive `cls_match` (R84 to R97, R99). -/
def writesMatch : Instr → Bool
  | .mNmt0 _ | .mNmthb _ | .mEmcy _ | .mLss7E4 _ | .mLss7E5 _ => true
  | .mTpdo1 _ | .mTpdo2 _ | .mTpdo3 _ | .mTpdo4 _ => true
  | .mRpdo1 _ | .mRpdo2 _ | .mRpdo3 _ | .mRpdo4 _ => true
  | .mSdoreq _ | .mSdoresp _ | .classify _ => true
  | .buildGeneric _ _ _ | .buildSdo _ _ _ _ | .buildNmt _ _ => false
  | .svcRead _ _ | .svcWrite1 _ _ | .svcWrite2 _ _ | .svcWrite4 _ _ => false
  | .nodeId _ | .sdoCode _ _ | .sdoIndex _ _ _ | .sdoSubindex _ _ => false
  | .packLe _ _ | .unpackLe _ _ | .concat _ => false

/-- The operations that drive `sdo_svc` (R105). -/
def writesSvc : Instr → Bool
  | .svcRead _ _ | .svcWrite1 _ _ | .svcWrite2 _ _ | .svcWrite4 _ _ | .sdoCode _ _ => true
  | .buildGeneric _ _ _ | .buildSdo _ _ _ _ | .buildNmt _ _ => false
  | .mNmt0 _ | .mNmthb _ | .mEmcy _ | .mLss7E4 _ | .mLss7E5 _ => false
  | .mTpdo1 _ | .mTpdo2 _ | .mTpdo3 _ | .mTpdo4 _ => false
  | .mRpdo1 _ | .mRpdo2 _ | .mRpdo3 _ | .mRpdo4 _ => false
  | .mSdoreq _ | .mSdoresp _ | .classify _ | .nodeId _ | .sdoIndex _ _ _ | .sdoSubindex _ _ => false
  | .packLe _ _ | .unpackLe _ _ | .concat _ => false

/-- Two ENC requests agree on every port R56 says the selected operation reads. -/
def SameOperands (q r : EncReq) : Prop :=
  q.op = r.op ∧
  (q.op = 0 → q.id = r.id ∧ q.len = r.len ∧
    ∀ i < q.len.toNat, q.data.extractLsb' (8 * i) 8 = r.data.extractLsb' (8 * i) 8) ∧
  (q.op = 1 → q.svc = r.svc ∧ q.id = r.id ∧ q.index = r.index ∧ q.sub = r.sub) ∧
  (q.op = 2 → q.cmd = r.cmd ∧ q.node = r.node)

/-- Two frames on CLS's inputs are the same frame (R19): equal identifiers, equal lengths, equal bytes
below the length. -/
def SameFrame (f g : RxPorts) : Prop :=
  f.id = g.id ∧ f.len = g.len ∧
  ∀ i < 8, i < f.len.toNat → f.data.extractLsb' (8 * i) 8 = g.data.extractLsb' (8 * i) 8

/-- ENC's outputs are a frame of length 1 to 8 with zeros beyond it, or a refusal with one of the four
causes and zeros (R54, R71, R75, R114). -/
def EncPortsLegal (p : EncPorts) : Prop :=
  (p.valid = 1 ∧ p.err = 0 ∧ 1 ≤ p.len.toNat ∧ p.len.toNat ≤ 8 ∧
    ∀ i < 8, p.len.toNat ≤ i → p.data.extractLsb' (8 * i) 8 = 0) ∨
  (p.valid = 0 ∧ 1 ≤ p.err.toNat ∧ p.err.toNat ≤ 4 ∧ p.id = 0 ∧ p.len = 0 ∧ p.data = 0)

/-- CLS's outputs are ones the block can produce: at most one predicate, `cls_multi` 0, a category
code of R55 and no code 6 or 7, a ServiceCode tag 0 to 4 (R50, R55, R99, R100, R101). -/
def ClsPortsLegal (c : ClsPorts) : Prop :=
  (∀ j k, c.matchBits.getLsbD j = true → c.matchBits.getLsbD k = true → j = k) ∧
  c.multi = 0 ∧ c.cat ≠ 6 ∧ c.cat ≠ 7 ∧ (c.cat = 0 ↔ c.matchBits = 0) ∧ c.svc.toNat ≤ 4

/-- Every output is one the block can produce, and no buffer of the packing functions holds more than
eight bytes (R81). -/
def OutputsLegal (s : State) : Prop :=
  EncPortsLegal s.tx ∧ ClsPortsLegal s.cls ∧
  (∀ bytes, s.fn.packed = some bytes → bytes.length ≤ 8) ∧
  ∀ bytes, s.fn.joined = some bytes → bytes.length ≤ 8

/-- The packing functions' results for their operands: R77, R78 and R80 inside the domains, no result
outside (log entry 12) or for more than eight bytes (R81; log entry 13). -/
def packReference (a : PackArgs) : PackResults :=
  { packed := if 1 ≤ a.packCount ∧ a.packCount ≤ 8 then some (packBytes a.packValue a.packCount) else none
    unpacked :=
      if 1 ≤ a.unpackCount ∧ a.unpackCount ≤ 8 ∧ a.unpackCount ≤ a.unpackBytes.length then
        some (unpackValue a.unpackBytes a.unpackCount)
      else none
    joined := if a.groups ≠ [] ∧ a.groups.flatten.length ≤ 8 then some a.groups.flatten else none }

/-- The block with the inputs `r` present, every output at the value the tables give for them. -/
def reference (r : Request) : State :=
  { req := r, tx := encReference r.enc, cls := clsReference r.rx, fn := packReference r.fn }

/-- Every output is a combinational function of the inputs present (R13, R27, R125). -/
def Settled (s : State) : Prop := s = reference s.req

/-- The states of a run: the starting state, what an evaluation leaves, and what a presentation of
inputs leaves. -/
inductive Occurs : State → Prop where
  | reset : Occurs State.reset
  | step {s t : State} (h : Occurs s) (hs : step s = .next t) : Occurs t
  | enc {s : State} (q : EncReq) (h : Occurs s) : Occurs (presentEnc q s)
  | rx {s : State} (f : RxPorts) (h : Occurs s) : Occurs (presentRx f s)
  | use {s : State} (sel : Select) (h : Occurs s) : Occurs (presentUse sel s)
  | packing {s : State} (row : AlwaysRow) (a : PackArgs) (h : Occurs s) : Occurs (presentPacking row a s)
  | word {s : State} (nbits w : Nat) (h : Occurs s) : Occurs (s.withFetchWord nbits w)
  | wired {s t : State} (h : Occurs s) (hs : loopBack s = some t) : Occurs t

/-- What the environment owes a frame it presents to CLS: the RawFrame invariant (R18, R127). No
meaning relies on it (R110). -/
def EnvironmentOwes (f : RxPorts) : Prop := f.len.toNat ≤ maxLen

end Sys2Proof.Machine
end

