-- ==== Sys2Proof/Certificates/Slice0/Obligations.lean ====
section
/-!
DEFINITION. The statements for the provers.
-/

open Sys2Proof Sys2Proof.Machine

/-! ### Encoding -/

/-- Words written out from the tables of R49, R59 and R60 decode to their rows. How a word stands on the
ports (up to 8 bits: `enc_op` below 4, else byte 0 of a one-byte frame; 16 bits: `rx_id`) is the model's
choice, log entry 15. -/
def Obligations.SpecWordsDecode : Prop :=
  decodeTableWord 8 0b01 = some (.buildSdo 0 0 0 0) ∧
  decodeTableWord 8 0b10 = some (.buildNmt 0 0) ∧
  decodeTableWord 8 0b11 = none ∧
  decodeTableWord 16 0b0111_0001_0010 = some (.mNmthb 0x712) ∧
  decodeTableWord 16 0b0101_1111_1111 = some (.mSdoresp 0x5FF) ∧
  decodeTableWord 16 0b0111_1110_0101 = some (.mLss7E5 0x7E5) ∧
  decodeTableWord 16 0b0001_0111_1111 = none ∧
  decodeTableWord 8 0b0010_1111 = some (.svcWrite1 1 0x2F) ∧
  decodeTableWord 8 0b0010_0010 = none

/-- Decoding the ports the encoder drives gives the operation back, every operand included, for every
well-formed operation (R49, R56, R59, R60, R66). -/
def Obligations.DecodeOfEncode : Prop :=
  ∀ i : Instr, WellFormed i = true → decode (encode i) = .ok i

/-- What stands on ENC's or CLS's ports decodes to a well-formed operation or to nothing. -/
def Obligations.DecodedIsWellFormed : Prop :=
  ∀ (r : Request) (i : Instr), unitOfSelect r.sel ≠ .packing → decode r = .ok i →
    WellFormed i = true ∧ unitOf i = unitOfSelect r.sel

/-- The order of the rows is immaterial: whichever row of a decode table matches is the one decoded,
so no two rows match together (R98, R100, R105). -/
def Obligations.RowOrderImmaterial : Prop :=
  (∀ (id : CanId), ∀ row ∈ rxIdRows, (id.setWidth 12 &&& row.mask) = row.value →
    decodeRxId id = .ok (row.op id)) ∧
  (∀ (len : LenPort) (b0 : Byte), ∀ row ∈ sdoByteRows, len ≠ 0 → b0 = row.value →
    decodeByte0 len b0 = .ok (row.op len b0))

/-- A presented opcode-table word is the instruction the next step decodes, in every state (the
model's convention, log entry 15). -/
def Obligations.FetchWordIsDecoded : Prop :=
  ∀ (s : State) (nbits w : Nat) (i : Instr), decodeTableWord nbits w = some i →
    decode (s.withFetchWord nbits w).req = .ok i

/-- A step runs the decoded instruction, on the block as the inputs present make it (every output at
its value for them); where the outputs stand so already, as they do throughout a run
(`OutputsFollowInputs`), a step is exec of the instruction at that very state. That the undecoded
outputs are settled in the same step is the model's reading (log entry 6). -/
def Obligations.StepRunsDecoded : Prop :=
  ∀ (s : State) (i : Instr), decode s.req = .ok i → WellFormed i = true →
    step s = exec i (settle s.req) ∧ (Settled s → step s = exec i s)

/-! ### The frame builder -/

/-- `BUILD_GENERIC` (R68): refused with `BAD_LEN` exactly for lengths 0 and 9 to 15; else a frame with
the operand's identifier, length and first `len` bytes. Bytes beyond the length do not affect it. -/
def Obligations.BuildGenericResult : Prop :=
  (∀ (id : CanId) (len : LenPort) (d : DataPort) (s : State), 1 ≤ len.toNat ∧ len.toNat ≤ 8 →
    ∃ p : EncPorts, exec (.buildGeneric id len d) s = .next { s with tx := p } ∧
      p.valid = 1 ∧ p.err = 0 ∧ p.id = id ∧ p.len = len ∧
      ∀ i < len.toNat, p.data.extractLsb' (8 * i) 8 = d.extractLsb' (8 * i) 8) ∧
  (∀ (id : CanId) (len : LenPort) (d : DataPort) (s : State), len.toNat = 0 ∨ 8 < len.toNat →
    exec (.buildGeneric id len d) s =
      .next { s with tx := { valid := 0, err := 1, id := 0, len := 0, data := 0 } }) ∧
  (∀ (id : CanId) (len : LenPort) (d e : DataPort) (s : State),
    (∀ i < len.toNat, d.extractLsb' (8 * i) 8 = e.extractLsb' (8 * i) 8) →
    exec (.buildGeneric id len d) s = exec (.buildGeneric id len e) s)

/-- `BUILD_SDO` (R57, R69): tags 1 to 4 give the eight bytes of R57 under the identifier unchanged;
every other tag is refused with `BAD_SVC`. -/
def Obligations.BuildSdoResult : Prop :=
  (∀ (svc : BitVec 3) (wire : Byte) (id : CanId) (index : BitVec 16) (sub : Byte) (s : State),
    (svc, wire) ∈ [((1 : BitVec 3), (0x40 : Byte)), (2, 0x2F), (3, 0x2B), (4, 0x23)] →
    exec (.buildSdo svc id index sub) s =
      .next { s with tx :=
        { valid := 1, err := 0, id := id, len := 8, data := 0#32 ++ sub ++ index ++ wire } }) ∧
  (∀ (svc : BitVec 3) (id : CanId) (index : BitVec 16) (sub : Byte) (s : State),
    svc = 0 ∨ 4 < svc.toNat →
    exec (.buildSdo svc id index sub) s =
      .next { s with tx := { valid := 0, err := 3, id := 0, len := 0, data := 0 } })

/-- `BUILD_NMT` (R58, R70): the five command tags give a two-byte frame under identifier 0, the wire
byte then the node unchanged; every other tag is refused with `BAD_CMD`. Four of the wire bytes are
the instance's parameters, whatever they are (R53); reset-node is 0x81. -/
def Obligations.BuildNmtResult : Prop :=
  (∀ (cmd : BitVec 4) (wire node : Byte) (s : State),
    (cmd, wire) ∈
      [((0 : BitVec 4), Config.nmtWires.operational), (1, Config.nmtWires.stopped),
       (2, Config.nmtWires.preoperational), (3, (0x81 : Byte)), (4, Config.nmtWires.resetComm)] →
    exec (.buildNmt cmd node) s =
      .next { s with tx := { valid := 1, err := 0, id := 0, len := 2, data := 0#48 ++ node ++ wire } }) ∧
  (∀ (cmd : BitVec 4) (node : Byte) (s : State), 4 < cmd.toNat →
    exec (.buildNmt cmd node) s =
      .next { s with tx := { valid := 0, err := 2, id := 0, len := 0, data := 0 } })

/-- One evaluation of ENC performs exactly the operation `enc_op` selects, and refuses value 3 with
`BAD_OP` (R67). It runs on `settle s.req`, the block with the inputs present and every other output at
its value for them too: that is R13 and R27, and that one step does it is the model's reading (log
entry 6). -/
def Obligations.EncDispatch : Prop :=
  ∀ s : State, s.req.sel = .encOp →
    (s.req.enc.op = 0 →
      step s = exec (.buildGeneric s.req.enc.id s.req.enc.len s.req.enc.data) (settle s.req)) ∧
    (s.req.enc.op = 1 →
      step s =
        exec (.buildSdo s.req.enc.svc s.req.enc.id s.req.enc.index s.req.enc.sub) (settle s.req)) ∧
    (s.req.enc.op = 2 → step s = exec (.buildNmt s.req.enc.cmd s.req.enc.node) (settle s.req)) ∧
    (s.req.enc.op = 3 →
      step s =
        .next { settle s.req with tx := { valid := 0, err := 4, id := 0, len := 0, data := 0 } })

/-- The four causes of `Invalid` (R113), each under exactly its condition, with the outputs of R114;
with no condition a frame is produced; an evaluation of CLS raises nothing. That everything else stands as
the inputs present make it, CLS's outputs after an evaluation of ENC and ENC's after one of CLS among it,
rests on R13 and R27 and is the model's reading of a step (log entries 6 and 20). -/
def Obligations.InvalidCauses : Prop :=
  (∀ (s : State) (code : BitVec 3), s.req.sel = .encOp →
    ((code = 1 ∧ s.req.enc.op = 0 ∧ (s.req.enc.len.toNat = 0 ∨ 8 < s.req.enc.len.toNat)) ∨
     (code = 2 ∧ s.req.enc.op = 2 ∧ 4 < s.req.enc.cmd.toNat) ∨
     (code = 3 ∧ s.req.enc.op = 1 ∧ (s.req.enc.svc.toNat = 0 ∨ 4 < s.req.enc.svc.toNat)) ∨
     (code = 4 ∧ s.req.enc.op = 3) ↔
      step s =
        .next { reference s.req with
          tx := { valid := 0, err := code, id := 0, len := 0, data := 0 } })) ∧
  (∀ s : State, s.req.sel = .encOp → ∃ t, step s = .next t ∧ t.cls = clsReference s.req.rx ∧
    (t.tx.valid = 1 ∧ t.tx.err = 0 ∨ t.tx.valid = 0 ∧ t.tx.err ≠ 0)) ∧
  (∀ s : State, unitOfSelect s.req.sel = .cls →
    ∃ t, step s = .next t ∧ t.tx = encReference s.req.enc)

/-- Every successful build has a length of 1 to 8, that of its operation, and the identifier R75
names: the spec's own inference, "[derived: from rules R68, R69 and R70]". -/
def Obligations.BuiltFrameIsLegal : Prop :=
  ∀ s t : State, s.req.sel = .encOp → step s = .next t → t.tx.valid = 1 →
    1 ≤ t.tx.len.toNat ∧ t.tx.len.toNat ≤ 8 ∧
    (s.req.enc.op = 0 → t.tx.len = s.req.enc.len ∧ t.tx.id = s.req.enc.id) ∧
    (s.req.enc.op = 1 → t.tx.len = 8 ∧ t.tx.id = s.req.enc.id) ∧
    (s.req.enc.op = 2 → t.tx.len = 2 ∧ t.tx.id = 0)

/-- Ports an operation does not read have no effect on its outputs (R56, R72), and an illegal value on
one raises nothing: the outcome is legal wherever the operation's own check passes. -/
def Obligations.IgnoredPortsHaveNoEffect : Prop :=
  (∀ s s' : State, s.req.sel = .encOp → s'.req.sel = .encOp → SameOperands s.req.enc s'.req.enc →
    ∃ t t', step s = .next t ∧ step s' = .next t' ∧ t.tx = t'.tx) ∧
  (∀ s : State, s.req.sel = .encOp →
    (s.req.enc.op = 0 ∧ 1 ≤ s.req.enc.len.toNat ∧ s.req.enc.len.toNat ≤ 8 ∨
     s.req.enc.op = 1 ∧ 1 ≤ s.req.enc.svc.toNat ∧ s.req.enc.svc.toNat ≤ 4 ∨
     s.req.enc.op = 2 ∧ s.req.enc.cmd.toNat ≤ 4) →
    ∃ t, step s = .next t ∧ t.tx.valid = 1)

/-- What the ports carry of a produced frame (R71): its identifier, its length, its bytes in their
lanes, and zero in every lane at or beyond the length. -/
def Obligations.FrameOnPorts : Prop :=
  ∀ (i : Instr) (f : RawFrame) (s : State),
    (∃ id len d, i = .buildGeneric id len d ∧ buildGeneric id len d = .frame f) ∨
    (∃ svc id index sub, i = .buildSdo svc id index sub ∧ buildSdo svc id index sub = .frame f) ∨
    (∃ cmd node, i = .buildNmt cmd node ∧ buildNmt Config.nmtWires cmd node = .frame f) →
    ∃ p : EncPorts, exec i s = .next { s with tx := p } ∧
      p.valid = 1 ∧ p.err = 0 ∧ p.id = f.id ∧ p.len.toNat = f.data.length ∧
      ∀ k < 8, p.data.extractLsb' (8 * k) 8 = (f.data[k]?).getD 0

/-- The frame the environment takes from the ports (R26, R122; read off as in log entry 17) is the one
the operation was asked for: the source's properties T1 for every length of 1 to 8, T2 for the four
ServiceCodes and T3 for the five commands, whatever the wire bytes of four of them (R53). -/
def Obligations.BuiltFrameIsTheRequested : Prop :=
  (∀ (id : CanId) (len : LenPort) (d : DataPort) (s : State), 1 ≤ len.toNat ∧ len.toNat ≤ 8 →
    ∃ t, exec (.buildGeneric id len d) s = .next t ∧
      builtFrame t.tx =
        some { id := id, data := (List.range len.toNat).map (fun i => d.extractLsb' (8 * i) 8) }) ∧
  (∀ (svc : BitVec 3) (wire : Byte) (id : CanId) (index : BitVec 16) (sub : Byte) (s : State),
    (svc, wire) ∈ [((1 : BitVec 3), (0x40 : Byte)), (2, 0x2F), (3, 0x2B), (4, 0x23)] →
    ∃ t, exec (.buildSdo svc id index sub) s = .next t ∧
      builtFrame t.tx =
        some { id := id,
               data := [wire, index.extractLsb' 0 8, index.extractLsb' 8 8, sub, 0, 0, 0, 0] }) ∧
  (∀ (cmd : BitVec 4) (wire node : Byte) (s : State),
    (cmd, wire) ∈
      [((0 : BitVec 4), Config.nmtWires.operational), (1, Config.nmtWires.stopped),
       (2, Config.nmtWires.preoperational), (3, (0x81 : Byte)), (4, Config.nmtWires.resetComm)] →
    ∃ t, exec (.buildNmt cmd node) s = .next t ∧
      builtFrame t.tx = some { id := 0, data := [wire, node] })

/-! ### The classifier -/

/-- `M_NMT0`, `M_NMTHB` and `M_EMCY` (R84 to R86). -/
def Obligations.PredicatesNmtEmcy : Prop :=
  DrivesOnlyBit .mNmt0 0 (fun id => id.setWidth 12 &&& 0xFFF = 0x000) ∧
  (∀ id : CanId, id.setWidth 12 &&& 0xFFF = (0x000 : BitVec 12) ↔ id = 0x000) ∧
  GivesCategory (fun id => id = 0x000) 1 ∧
  RangePredicate .mNmthb 1 0x700 0b1110 0x700 1 ∧
  RangePredicate .mEmcy 2 0x080 0b0001 0x080 2

/-- `M_LSS` (R87). That the operation of either of its two table rows drives bit 3 with the whole
disjunction is the model's reading (log entry 7). -/
def Obligations.PredicateLss : Prop :=
  DrivesOnlyBit .mLss7E4 3
    (fun id => id.setWidth 12 &&& 0xFFF = 0x7E4 ∨ id.setWidth 12 &&& 0xFFF = 0x7E5) ∧
  DrivesOnlyBit .mLss7E5 3
    (fun id => id.setWidth 12 &&& 0xFFF = 0x7E4 ∨ id.setWidth 12 &&& 0xFFF = 0x7E5) ∧
  (∀ id : CanId, (id.setWidth 12 &&& 0xFFF = (0x7E4 : BitVec 12) ∨
    id.setWidth 12 &&& 0xFFF = (0x7E5 : BitVec 12)) ↔ (id = 0x7E4 ∨ id = 0x7E5)) ∧
  GivesCategory (fun id => id = 0x7E4 ∨ id = 0x7E5) 3

/-- `M_TPDO1` to `M_TPDO4` (R88 to R91). -/
def Obligations.PredicatesTpdo : Prop :=
  RangePredicate .mTpdo1 4 0x180 0b0011 0x180 8 ∧
  RangePredicate .mTpdo2 5 0x280 0b0101 0x280 9 ∧
  RangePredicate .mTpdo3 6 0x380 0b0111 0x380 10 ∧
  RangePredicate .mTpdo4 7 0x480 0b1001 0x480 11

/-- `M_RPDO1` to `M_RPDO4` (R92 to R95). -/
def Obligations.PredicatesRpdo : Prop :=
  RangePredicate .mRpdo1 8 0x200 0b0100 0x200 12 ∧
  RangePredicate .mRpdo2 9 0x300 0b0110 0x300 13 ∧
  RangePredicate .mRpdo3 10 0x400 0b1000 0x400 14 ∧
  RangePredicate .mRpdo4 11 0x500 0b1010 0x500 15

/-- `M_SDOREQ` and `M_SDORESP` (R96, R97). -/
def Obligations.PredicatesSdo : Prop :=
  RangePredicate .mSdoreq 12 0x600 0b1100 0x600 4 ∧
  RangePredicate .mSdoresp 13 0x580 0b1011 0x580 5

/-- `CLASSIFY` (R99): the fourteen rows each on its own, the OR of the codes of those that match, the
code of the matching one where exactly one matches, 0 where none does. `cls_multi` is R101's
(`MultiNeverSet`); nothing else changes. -/
def Obligations.ClassifyResult : Prop :=
  ∀ (id : CanId) (s : State), ∃ (m : BitVec 14) (cat : BitVec 4) (multi : Bit),
    exec (.classify id) s =
      .next { s with cls := { s.cls with matchBits := m, cat := cat, multi := multi } } ∧
    (∀ (k : Nat) row, classRows[k]? = some row → (m.getLsbD k = true ↔ rowMatches row id)) ∧
    (∀ b, cat.getLsbD b = true ↔
      ∃ (k : Nat) (row : BitVec 12 × List (BitVec 12) × BitVec 4), classRows[k]? = some row ∧
        rowMatches row id ∧ row.2.2.getLsbD b = true) ∧
    (∀ (k : Nat) row, classRows[k]? = some row → rowMatches row id →
      (∀ (j : Nat) row', classRows[j]? = some row' → rowMatches row' id → j = k) → cat = row.2.2) ∧
    ((∀ row ∈ classRows, ¬ rowMatches row id) → cat = 0)

/-- Exclusivity: at most one bit of `cls_match` is 1, for every identifier; R100's own inference,
"[derived: from rules R84 to R97 by exhaustive evaluation; ...]", finer than the source's property, which
has NMT as one item. -/
def Obligations.ClassificationExclusive : Prop :=
  ∀ (id : CanId) (s : State), ∃ t, exec (.classify id) s = .next t ∧
    ∀ j k, t.cls.matchBits.getLsbD j = true → t.cls.matchBits.getLsbD k = true → j = k

/-- `cls_multi` (R101), in every evaluation of CLS: 1 exactly when two bits of `cls_match` are 1, hence
0 for every input. -/
def Obligations.MultiNeverSet : Prop :=
  ∀ s : State, unitOfSelect s.req.sel = .cls → ∃ t, step s = .next t ∧
    (t.cls.multi = 1 ↔
      ∃ j k, j ≠ k ∧ t.cls.matchBits.getLsbD j = true ∧ t.cls.matchBits.getLsbD k = true) ∧
    t.cls.multi = 0

/-- The identifier map of R39, the spec's own inference, "[derived: by evaluating rules R84 to R97 on all
2048 identifiers]": each range of identifiers has the predicate and category its row
gives, and the frame of `CLASSIFY`. -/
def Obligations.IdentifierMapHolds : Prop :=
  ∀ (id : CanId) (s : State),
    exec (.classify id) s =
      .next { s with cls := { s.cls with
        matchBits := (identifierMap id.toNat).1, cat := (identifierMap id.toNat).2, multi := 0 } }

/-- `NODE_ID` (R102): `rx_id & 0x7F`, for every identifier, and nothing else changes. -/
def Obligations.NodeIdResult : Prop :=
  ∀ (id : CanId) (s : State), ∃ n : BitVec 7,
    exec (.nodeId id) s = .next { s with cls := { s.cls with node := n } } ∧
    n = id.extractLsb' 0 7 ∧ n.setWidth 11 = id &&& 0x7F

/-- `cls_match`, `cls_cat`, `cls_multi` and `cls_node` are functions of `rx_id` alone, whatever the
lengths, the data and everything else (R103). -/
def Obligations.ClassDependsOnIdAlone : Prop :=
  ∀ s s' : State, unitOfSelect s.req.sel = .cls → unitOfSelect s'.req.sel = .cls →
    s.req.rx.id = s'.req.rx.id →
    ∃ t t', step s = .next t ∧ step s' = .next t' ∧
      t.cls.matchBits = t'.cls.matchBits ∧ t.cls.cat = t'.cls.cat ∧
      t.cls.multi = t'.cls.multi ∧ t.cls.node = t'.cls.node

/-- Every identifier yields a category, possibly NONE, and a node identifier; no frame is an error, and a
frame too short for a field gives that field's default (R104). -/
def Obligations.ClassificationIsTotal : Prop :=
  ∀ s : State, unitOfSelect s.req.sel = .cls →
    ∃ t c, step s = .next t ∧ categoryOfCode t.cls.cat = some c ∧
      t.cls.node = s.req.rx.id.extractLsb' 0 7 ∧
      (t.cls.matchBits = 0 → c = .noneOfTheAbove) ∧
      (s.req.rx.len = 0 → t.cls.svc = 0) ∧
      (s.req.rx.len.toNat < 3 → t.cls.index = 0) ∧ (s.req.rx.len.toNat < 4 → t.cls.sub = 0)

/-! ### SDO field extraction -/

/-- `SDO_CODE` (R60, R105): tag 0 for an empty frame; on any other, a full comparison of byte 0.
Nothing but `sdo_svc` changes. -/
def Obligations.SdoCodeResult : Prop := DecodesServiceCode .sdoCode

/-- The four rows of format `SDOB0` (R66) are the comparisons inside `SDO_CODE`; that each drives
`sdo_svc` with the whole decode of R60 is the model's reading (log entry 8). -/
def Obligations.SdoByteRowsDecode : Prop :=
  DecodesServiceCode .svcRead ∧ DecodesServiceCode .svcWrite1 ∧
  DecodesServiceCode .svcWrite2 ∧ DecodesServiceCode .svcWrite4

/-- `SDO_INDEX` (R107): 0 below three bytes, else `{F.data[2], F.data[1]}`; nothing but `sdo_index`
changes. -/
def Obligations.SdoIndexResult : Prop :=
  ∀ (len : LenPort) (b1 b2 : Byte) (s : State),
    exec (.sdoIndex len b1 b2) s =
      .next { s with cls := { s.cls with index := if len.toNat < 3 then 0 else b2 ++ b1 } }

/-- `SDO_SUBINDEX` (R108): 0 below four bytes, else byte 3; nothing but `sdo_sub` changes. -/
def Obligations.SdoSubindexResult : Prop :=
  ∀ (len : LenPort) (b3 : Byte) (s : State),
    exec (.sdoSubindex len b3) s =
      .next { s with cls := { s.cls with sub := if len.toNat < 4 then 0 else b3 } }

/-- No output of CLS depends on a byte at or beyond the frame's length (R19, R38): two presentations
of the same frame give the same outputs. -/
def Obligations.BytesBeyondLengthIgnored : Prop :=
  ∀ s s' : State, unitOfSelect s.req.sel = .cls → unitOfSelect s'.req.sel = .cls →
    SameFrame s.req.rx s'.req.rx →
    ∃ t t', step s = .next t ∧ step s' = .next t' ∧ t.cls = t'.cls

/-- Lengths 9 to 15 extract exactly as length 8, and classification is unaffected (R110). -/
def Obligations.LongLengthsActAsEight : Prop :=
  ∀ s : State, unitOfSelect s.req.sel = .cls → 8 < s.req.rx.len.toNat →
    ∃ t t', step s = .next t ∧
      step { s with req := { s.req with rx := { s.req.rx with len := 8 } } } = .next t' ∧
      t.cls = t'.cls

/-- The extractors are computed for every frame, from its length and data alone (R109): whatever the
identifier, the category and everything else, the outputs are those of R105, R107 and R108. -/
def Obligations.ExtractorsNotGated : Prop :=
  (∀ s s' : State, unitOfSelect s.req.sel = .cls → unitOfSelect s'.req.sel = .cls →
    s.req.rx.len = s'.req.rx.len → s.req.rx.data = s'.req.rx.data →
    ∃ t t', step s = .next t ∧ step s' = .next t' ∧
      t.cls.svc = t'.cls.svc ∧ t.cls.index = t'.cls.index ∧ t.cls.sub = t'.cls.sub) ∧
  (∀ s : State, unitOfSelect s.req.sel = .cls → ∃ t, step s = .next t ∧
    t.cls.svc = svcTagReference s.req.rx.len.toNat (s.req.rx.data.extractLsb' 0 8).toNat ∧
    t.cls.index = (if s.req.rx.len.toNat < 3 then 0 else s.req.rx.data.extractLsb' 8 16) ∧
    t.cls.sub = (if s.req.rx.len.toNat < 4 then 0 else s.req.rx.data.extractLsb' 24 8))

/-- Build then extract (R111), the spec's own inference, "[derived: from `41_frame_builder.md` rule R69,
`42_packing.md` rule R79 and rules R105, R107 and R108, ...]": for every legal tag and every operand, the frame a step of ENC builds,
wired to CLS, gives the operands back, and is an SDO request exactly when the identifier says so. -/
def Obligations.BuildThenExtract : Prop :=
  ∀ s : State, s.req.sel = .encOp → s.req.enc.op = 1 →
    1 ≤ s.req.enc.svc.toNat ∧ s.req.enc.svc.toNat ≤ 4 →
    ∃ t u v, step s = .next t ∧ loopBack t = some u ∧ step u = .next v ∧
      v.cls.svc = s.req.enc.svc ∧ v.cls.index = s.req.enc.index ∧ v.cls.sub = s.req.enc.sub ∧
      (v.cls.cat = 4 ↔ 0x600 ≤ s.req.enc.id.toNat ∧ s.req.enc.id.toNat ≤ 0x67F)

/-! ### The packing functions -/

/-- `PACK_LE(v, n)` for `1 <= n <= 8` (R77): `n` bytes, byte `i` being bits `[8i, 8i+8)`. -/
def Obligations.PackLeResult : Prop :=
  ∀ (v : BitVec 64) (n : Nat) (s : State), 1 ≤ n ∧ n ≤ 8 →
    ∃ bytes : List Byte, exec (.packLe v n) s =
      .next { s with fn := { s.fn with packed := some bytes } } ∧
      bytes.length = n ∧ ∀ i < n, bytes[i]? = some (v.extractLsb' (8 * i) 8)

/-- `UNPACK_LE(s, n)` for `1 <= n <= 8` on at least `n` bytes (R78): byte `i` at bits `[8i, 8i+8)`,
zero above, equivalently the sum of the bytes by powers of 256. -/
def Obligations.UnpackLeResult : Prop :=
  ∀ (bytes : List Byte) (n : Nat) (s : State), 1 ≤ n ∧ n ≤ 8 → n ≤ bytes.length →
    ∃ r : BitVec 64, exec (.unpackLe bytes n) s =
      .next { s with fn := { s.fn with unpacked := some r } } ∧
      (∀ i < n, bytes[i]? = some (r.extractLsb' (8 * i) 8)) ∧ r.toNat < 2 ^ (8 * n) ∧
      r.toNat = (bytes.take n).foldr (fun b acc => b.toNat + 256 * acc) 0

/-- Round trips (R79), the spec's own inference, "[derived: from rules R77 and R78]": packing then
unpacking keeps the low `8n` bits; unpacking exactly `n` bytes then packing gives the bytes. -/
def Obligations.PackingRoundTrips : Prop :=
  (∀ (v : BitVec 64) (n : Nat) (s : State), 1 ≤ n ∧ n ≤ 8 →
    ∃ t bytes u r, exec (.packLe v n) s = .next t ∧ t.fn.packed = some bytes ∧
      exec (.unpackLe bytes n) t = .next u ∧ u.fn.unpacked = some r ∧
      r.toNat = v.toNat % 2 ^ (8 * n)) ∧
  (∀ (bytes : List Byte) (n : Nat) (s : State), 1 ≤ n ∧ n ≤ 8 → bytes.length = n →
    ∃ t r u, exec (.unpackLe bytes n) s = .next t ∧ t.fn.unpacked = some r ∧
      exec (.packLe r n) t = .next u ∧ u.fn.packed = some bytes)

/-- `CONCAT` (R80), within the capacity of R81: the groups in order, of total length the sum, grouping
immaterial. Nothing else changes. -/
def Obligations.ConcatResult : Prop :=
  ∀ (g : List Byte) (gs : List (List Byte)) (s : State),
    ((g :: gs).map List.length).sum ≤ 8 →
    ∃ bytes, exec (.concat (g :: gs)) s = .next { s with fn := { s.fn with joined := some bytes } } ∧
      bytes = gs.foldl (· ++ ·) g ∧ bytes.length = ((g :: gs).map List.length).sum ∧
      exec (.concat [bytes]) s = exec (.concat (g :: gs)) s

/-- A concatenation of more than eight bytes makes no byte sequence (R81); that the machine goes on,
with the result `none`, is the model's reading (log entry 13). -/
def Obligations.ConcatOverCapacity : Prop :=
  ∀ (groups : List (List Byte)) (s : State), 8 < (groups.map List.length).sum →
    exec (.concat groups) s = .next { s with fn := { s.fn with joined := none } }

/-- Outside the domain of their rules the packing functions refuse, by name (decision D19; log entry
12). -/
def Obligations.PackingDomainRefused : Prop :=
  (∀ (v : BitVec 64) (n : Nat) (s : State), n = 0 ∨ 8 < n →
    exec (.packLe v n) s = .refused .byteCountOutsideDomain) ∧
  (∀ (bytes : List Byte) (n : Nat) (s : State), n = 0 ∨ 8 < n →
    exec (.unpackLe bytes n) s = .refused .byteCountOutsideDomain) ∧
  (∀ (bytes : List Byte) (n : Nat) (s : State), 1 ≤ n ∧ n ≤ 8 → bytes.length < n →
    exec (.unpackLe bytes n) s = .refused .sequenceTooShort) ∧
  (∀ s : State, exec (.concat []) s = .refused .noGroups)

/-! ### The whole machine -/

/-- At reset every output is the value the rules give for the inputs (R125; the inputs themselves are
the model's choice, log entry 3, and the outputs follow, log entry 4). -/
def Obligations.ResetIsSettled : Prop := Settled State.reset

/-- Every step, from every state, leaves every output of the block a combinational function of the
inputs present (R13). -/
def Obligations.StepKeepsSettled : Prop :=
  ∀ s t : State, step s = .next t → Settled t

/-- Every presentation of inputs, to any state, leaves every output at its value for the new inputs: no
old output stands beside new inputs (R13, R27, R125). The presentations are the model's form of the
environment (log entry 18). -/
def Obligations.PresentingSettles : Prop :=
  ∀ s : State,
    (∀ q, Settled (presentEnc q s) ∧ (presentEnc q s).req.enc = q) ∧
    (∀ f, Settled (presentRx f s) ∧ (presentRx f s).req.rx = f) ∧
    (∀ sel, Settled (presentUse sel s) ∧ (presentUse sel s).req.sel = sel) ∧
    (∀ row a, Settled (presentPacking row a s) ∧ (presentPacking row a s).req.fn = a) ∧
    (∀ nbits w, Settled (s.withFetchWord nbits w)) ∧
    (∀ u, loopBack s = some u → Settled u)

/-- "Each output has, at every moment including immediately after power is applied, the value the
operation rules give for the inputs present at that moment" (R27): in every state that occurs in a run,
from the starting state through any steps and presentations, whatever their order. The starting inputs
(log entry 3) and the presentations that make up a run (log entry 18) are the model's choice. -/
def Obligations.OutputsFollowInputs : Prop :=
  ∀ s : State, Occurs s → Settled s

/-- What the model drives for the inputs present is what the port tables give for them, for every
request: ENC's five outputs, CLS's seven and the packing results (R13, R16, R67). -/
def Obligations.SettledIsReference : Prop :=
  ∀ r : Request, settle r = reference r

/-- The operation the decoder names, performed where the outputs stand at their values for the inputs
present, drives what already stands there: each row's meaning agrees with the tables (R13, R98). -/
def Obligations.DecodedAgreesWithOutputs : Prop :=
  ∀ (s : State) (i : Instr), Settled s → decode s.req = .ok i →
    (unitOf i ≠ .packing → exec i s = .next s) ∧ (∀ t, exec i s = .next t → t = s)

/-- Every output at reset is one the block can produce. The reset inputs are the model's choice (log
entry 3) and the outputs follow from them (log entry 4). -/
def Obligations.ResetOutputsLegal : Prop := OutputsLegal State.reset

/-- Every step, from every state, leaves every output one the block can produce: a refusal carries a
cause and zeros, a frame 1 to 8 bytes, at most one predicate matches (R54, R75, R100, R114). -/
def Obligations.StepKeepsOutputsLegal : Prop :=
  ∀ s t : State, step s = .next t → OutputsLegal t

/-- One evaluation of ENC, from any state, answers the block with every output at the value the port
tables give for the inputs present, ENC's five among them, and the inputs as they were (R16, R67). -/
def Obligations.EncStepMeetsReference : Prop :=
  ∀ s : State, s.req.sel = .encOp → step s = .next (reference s.req)

/-- One evaluation of CLS, from any state and through whichever row of the table it is read, answers the
block with every output at the value the port tables give for the inputs present, CLS's seven among
them, and the inputs as they were (R16, R98). -/
def Obligations.ClsStepMeetsReference : Prop :=
  ∀ s : State, unitOfSelect s.req.sel = .cls → step s = .next (reference s.req)

/-- Evaluating an operation twice on equal inputs gives equal outputs (R28): a second step changes
nothing. -/
def Obligations.StepIsRepeatable : Prop :=
  ∀ s t : State, step s = .next t → step t = .next t

/-- The outputs of an evaluation depend on its inputs and on nothing else, in particular not on what
was evaluated before nor on the other unit (R42): evaluations of ENC or CLS with equal ENC inputs give
equal ENC outputs, with equal CLS inputs equal CLS outputs, whatever the states hold besides; a packing
function answers the same to the same operands; and two states with equal inputs have the same step. -/
def Obligations.HistoryHasNoEffect : Prop :=
  (∀ s s' : State, unitOfSelect s.req.sel ≠ .packing → unitOfSelect s'.req.sel ≠ .packing →
    ∃ t t', step s = .next t ∧ step s' = .next t' ∧
      (s.req.enc = s'.req.enc → t.tx = t'.tx) ∧ (s.req.rx = s'.req.rx → t.cls = t'.cls)) ∧
  (∀ s s' : State, unitOfSelect s.req.sel = .packing → s.req.sel = s'.req.sel →
    s.req.fn = s'.req.fn →
    (∀ t, step s = .next t → ∃ t', step s' = .next t' ∧ t.fn = t'.fn) ∧
    (∀ e, step s = .refused e → step s' = .refused e)) ∧
  (∀ s s' : State, s.req = s'.req → step s = step s')

/-- ENC and CLS are independent (R14): evaluated one after the other on the inputs present, in either
order, they give the same outputs, and neither evaluation changes the other unit's outputs or the
packing results, where these stand at their values for the inputs present. -/
def Obligations.UnitsAreIndependent : Prop :=
  ∀ (s : State) (c : Select), unitOfSelect c = .cls →
    ∃ a b a' b',
      step { s with req := { s.req with sel := .encOp } } = .next a ∧
      step { a with req := { a.req with sel := c } } = .next b ∧
      step { s with req := { s.req with sel := c } } = .next a' ∧
      step { a' with req := { a'.req with sel := .encOp } } = .next b' ∧
      a.tx = b.tx ∧ a'.cls = b'.cls ∧ b.tx = b'.tx ∧ b.cls = b'.cls ∧ b.fn = b'.fn ∧
      (Settled s → a.cls = s.cls ∧ a'.tx = s.tx ∧ b.fn = s.fn ∧ b'.fn = s.fn)

/-- No step changes an input port or the use selected: "every operation is a stateless,
side-effect-free transform" (R37). -/
def Obligations.InputsAreHeld : Prop :=
  ∀ s t : State, step s = .next t → t.req = s.req

/-- Frames (R14, R25, R37): an operation that answers a next state changes no input and only outputs of
its own unit, and of those only the ones its rule names. -/
def Obligations.OperationFrames : Prop :=
  ∀ (i : Instr) (s t : State), exec i s = .next t →
    t.req = s.req ∧
    (unitOf i ≠ .enc → t.tx = s.tx) ∧
    (unitOf i ≠ .cls → t.cls = s.cls) ∧
    (writesMatch i = false → t.cls.matchBits = s.cls.matchBits) ∧
    ((∀ id, i ≠ .classify id) → t.cls.cat = s.cls.cat ∧ t.cls.multi = s.cls.multi) ∧
    ((∀ id, i ≠ .nodeId id) → t.cls.node = s.cls.node) ∧
    (writesSvc i = false → t.cls.svc = s.cls.svc) ∧
    ((∀ len b1 b2, i ≠ .sdoIndex len b1 b2) → t.cls.index = s.cls.index) ∧
    ((∀ len b3, i ≠ .sdoSubindex len b3) → t.cls.sub = s.cls.sub) ∧
    ((∀ v n, i ≠ .packLe v n) → t.fn.packed = s.fn.packed) ∧
    ((∀ bytes n, i ≠ .unpackLe bytes n) → t.fn.unpacked = s.fn.unpacked) ∧
    ((∀ groups, i ≠ .concat groups) → t.fn.joined = s.fn.joined)

/-- A step stops only where a packing function is presented operands outside its domain: every
evaluation of ENC and of CLS answers, on every input (R9, R28, R104). -/
def Obligations.OnlyPackingCanRefuse : Prop :=
  ∀ s : State,
    (∃ t, step s = .next t) ∨
    (s.req.sel = .always .packLe ∧ ¬ countInDomain s.req.fn.packCount ∧
      step s = .refused .byteCountOutsideDomain) ∨
    (s.req.sel = .always .unpackLe ∧ ¬ countInDomain s.req.fn.unpackCount ∧
      step s = .refused .byteCountOutsideDomain) ∨
    (s.req.sel = .always .unpackLe ∧ countInDomain s.req.fn.unpackCount ∧
      s.req.fn.unpackBytes.length < s.req.fn.unpackCount ∧ step s = .refused .sequenceTooShort) ∨
    (s.req.sel = .always .concat ∧ s.req.fn.groups = [] ∧ step s = .refused .noGroups)
end

