-- ==== Sys2Proof/Laws/Flags.lean ====
section
/-!
SUPPORT. One lemma per function of Machine/Flags.lean: the bits of a driven predicate vector and the
bits of the whole vector (30_encoding.md R55).
-/

namespace Sys2Proof.Machine

/-- A driven bit reads as driven (R55). -/
theorem setMatchBit_getLsbD_self {k : Nat} (hk : k < 14) (b : Bool) (m : BitVec 14) :
    (setMatchBit k b m).getLsbD k = b := by
  cases b <;> simp [setMatchBit, hk]

/-- The other bits stand as they were. -/
theorem setMatchBit_getLsbD_other {j k : Nat} (h : j ≠ k) (b : Bool) (m : BitVec 14) :
    (setMatchBit k b m).getLsbD j = m.getLsbD j := by
  by_cases hj : j < 14
  · have h' : j < k ∨ j - k ≠ 0 := by omega
    rcases h' with h' | h' <;> cases b <;> simp [setMatchBit, hj, h']
  · rw [BitVec.getLsbD_of_ge _ _ (by omega), BitVec.getLsbD_of_ge _ _ (by omega)]

/-- Driving a bit to the value it has changes nothing. -/
theorem setMatchBit_same {k : Nat} {b : Bool} {m : BitVec 14} (hk : k < 14) (h : m.getLsbD k = b) :
    setMatchBit k b m = m := by
  apply BitVec.eq_of_getLsbD_eq
  intro j _
  by_cases hj : j = k
  · subst hj; rw [setMatchBit_getLsbD_self hk, h]
  · exact setMatchBit_getLsbD_other hj _ _

/-- Bit `k` of a vector of bits is the `k`th of the list. -/
theorem bitsToVector_getLsbD (l : List Bool) {k : Nat} (hk : k < 14) :
    (bitsToVector l).getLsbD k = l.getD k false := by
  induction l generalizing k with
  | nil => simp [bitsToVector]
  | cons b bs ih =>
    cases k with
    | zero => cases b <;> simp [bitsToVector]
    | succ n =>
      have := ih (k := n) (by omega)
      cases b <;> simp_all [bitsToVector]

/-- Bit `k` of `cls_match` is the predicate of that number (R55, R98). -/
theorem matchVector_getLsbD (id : CanId) {k : Nat} (hk : k < 14) :
    (matchVector id).getLsbD k = (predicates id).getD k false := bitsToVector_getLsbD _ hk

/-- Codes 6 and 7 stand for no category, every other code for one (R55). -/
theorem categoryOfCode_isSome (c : BitVec 4) :
    (categoryOfCode c).isSome = decide (c ≠ 6 ∧ c ≠ 7) := by
  revert c; decide

end Sys2Proof.Machine
end

