-- ==== Sys2Proof/Laws/Operands.lean ====
section
/-!
SUPPORT. One lemma per operand function: what it can answer (30_encoding.md R50 to R53;
42_packing.md R77 to R81).
-/

namespace Sys2Proof.Machine

/-- A ServiceCode is read back from its tag (R50). -/
theorem svcOfTag_svcTag (c : ServiceCode) : svcOfTag (svcTag c) = some c := by cases c <;> decide

/-- A NodeControlCommand is read back from its tag (R52). -/
theorem cmdOfTag_cmdTag (c : NodeControlCommand) : cmdOfTag (cmdTag c) = some c := by
  cases c <;> decide

/-- A tag has a wire value exactly when it is 1 to 4 (R50, R69). -/
theorem svcWireOfTag_isSome (tag : BitVec 3) :
    (svcWireOfTag tag).isSome = decide (1 ≤ tag.toNat ∧ tag.toNat ≤ 4) := by
  revert tag; decide

/-- "Legal means exactly: tag <= 4" (R52). -/
theorem nmtWire_isSome (w : NmtWires) (tag : BitVec 4) :
    (nmtWire w tag).isSome = decide (tag.toNat ≤ 4) := by
  have h : ∀ tag : BitVec 4,
      (match cmdOfTag tag with | some c => isCommand c | none => false) = decide (tag.toNat ≤ 4) := by
    decide
  rw [← h tag, nmtWire]
  cases cmdOfTag tag with
  | none => rfl
  | some c => cases hc : isCommand c <;> simp [hc]

/-- Two variants with one wire value are the same variant (R51: "injective on tags 1 to 4"). -/
theorem svcWire_injective {c d : ServiceCode} {b : Byte} (hc : svcWire c = some b)
    (hd : svcWire d = some b) : c = d := by
  cases c <;> cases d <;> simp [svcWire] at hc hd ⊢ <;> exact absurd (hc.trans hd.symm) (by decide)

@[simp] theorem packBytes_length (v : BitVec 64) (n : Nat) : (packBytes v n).length = n := by
  simp [packBytes]

/-- Byte `i` of a packed value (R77). -/
theorem packBytes_getElem? (v : BitVec 64) {n i : Nat} (h : i < n) :
    (packBytes v n)[i]? = some (byteLane v i) := by
  simp [packBytes, h]

@[simp] theorem leValue_nil : leValue [] = 0 := rfl

/-- The first byte is the least significant (R33). -/
theorem leValue_cons (b : Byte) (bs : List Byte) :
    leValue (b :: bs) = b.setWidth 64 ||| (leValue bs <<< 8) := rfl

/-- Concatenation "preserving order" (R7, R80). -/
theorem joinGroups_append (g h : List (List Byte)) :
    joinGroups (g ++ h) = joinGroups g ++ joinGroups h := by
  simp [joinGroups]

/-- What fits the buffer is the concatenation itself, of at most eight bytes (R80, R81). -/
theorem joinIntoBuffer_eq_some {gs : List (List Byte)} {l : List Byte} :
    joinIntoBuffer gs = some l ↔ l = joinGroups gs ∧ l.length ≤ maxLen := by
  unfold joinIntoBuffer
  split
  · constructor
    · intro h; cases h; exact ⟨rfl, ‹_›⟩
    · rintro ⟨rfl, -⟩; rfl
  · constructor
    · intro h; cases h
    · rintro ⟨rfl, h⟩; contradiction

end Sys2Proof.Machine
end

