-- ==== Sys2Proof/Laws/PerInstr.lean ====
section
/-!
SUPPORT. Laws stated per instruction. `OneUnit`: the encoder presents an operation on the ports of its
own unit alone, and every port of the others stands at zero (30_encoding.md R56, R64).
-/

namespace Sys2Proof.Laws.OneUnit

open Sys2Proof Sys2Proof.Machine

/-- The request that encodes `i` selects `i`'s unit and leaves the other units' inputs at zero. -/
def Statement (i : Instr) : Prop :=
  unitOfSelect (encode i).sel = unitOf i ∧
  (unitOf i ≠ .enc → (encode i).enc = EncReq.zero) ∧
  (unitOf i ≠ .cls → (encode i).rx = RxPorts.zero) ∧
  (unitOf i ≠ .packing → (encode i).fn = PackArgs.zero)

theorem buildGeneric (id : CanId) (len : LenPort) (data : DataPort) :
    Statement (.buildGeneric id len data) :=
  ⟨rfl, fun h => absurd rfl h, fun _ => rfl, fun _ => rfl⟩
theorem buildSdo (svc : BitVec 3) (id : CanId) (index : BitVec 16) (sub : Byte) :
    Statement (.buildSdo svc id index sub) :=
  ⟨rfl, fun h => absurd rfl h, fun _ => rfl, fun _ => rfl⟩
theorem buildNmt (cmd : BitVec 4) (node : Byte) :
    Statement (.buildNmt cmd node) :=
  ⟨rfl, fun h => absurd rfl h, fun _ => rfl, fun _ => rfl⟩
theorem mNmt0 (id : CanId) :
    Statement (.mNmt0 id) :=
  ⟨rfl, fun _ => rfl, fun h => absurd rfl h, fun _ => rfl⟩
theorem mNmthb (id : CanId) :
    Statement (.mNmthb id) :=
  ⟨rfl, fun _ => rfl, fun h => absurd rfl h, fun _ => rfl⟩
theorem mEmcy (id : CanId) :
    Statement (.mEmcy id) :=
  ⟨rfl, fun _ => rfl, fun h => absurd rfl h, fun _ => rfl⟩
theorem mLss7E4 (id : CanId) :
    Statement (.mLss7E4 id) :=
  ⟨rfl, fun _ => rfl, fun h => absurd rfl h, fun _ => rfl⟩
theorem mLss7E5 (id : CanId) :
    Statement (.mLss7E5 id) :=
  ⟨rfl, fun _ => rfl, fun h => absurd rfl h, fun _ => rfl⟩
theorem mTpdo1 (id : CanId) :
    Statement (.mTpdo1 id) :=
  ⟨rfl, fun _ => rfl, fun h => absurd rfl h, fun _ => rfl⟩
theorem mTpdo2 (id : CanId) :
    Statement (.mTpdo2 id) :=
  ⟨rfl, fun _ => rfl, fun h => absurd rfl h, fun _ => rfl⟩
theorem mTpdo3 (id : CanId) :
    Statement (.mTpdo3 id) :=
  ⟨rfl, fun _ => rfl, fun h => absurd rfl h, fun _ => rfl⟩
theorem mTpdo4 (id : CanId) :
    Statement (.mTpdo4 id) :=
  ⟨rfl, fun _ => rfl, fun h => absurd rfl h, fun _ => rfl⟩
theorem mRpdo1 (id : CanId) :
    Statement (.mRpdo1 id) :=
  ⟨rfl, fun _ => rfl, fun h => absurd rfl h, fun _ => rfl⟩
theorem mRpdo2 (id : CanId) :
    Statement (.mRpdo2 id) :=
  ⟨rfl, fun _ => rfl, fun h => absurd rfl h, fun _ => rfl⟩
theorem mRpdo3 (id : CanId) :
    Statement (.mRpdo3 id) :=
  ⟨rfl, fun _ => rfl, fun h => absurd rfl h, fun _ => rfl⟩
theorem mRpdo4 (id : CanId) :
    Statement (.mRpdo4 id) :=
  ⟨rfl, fun _ => rfl, fun h => absurd rfl h, fun _ => rfl⟩
theorem mSdoreq (id : CanId) :
    Statement (.mSdoreq id) :=
  ⟨rfl, fun _ => rfl, fun h => absurd rfl h, fun _ => rfl⟩
theorem mSdoresp (id : CanId) :
    Statement (.mSdoresp id) :=
  ⟨rfl, fun _ => rfl, fun h => absurd rfl h, fun _ => rfl⟩
theorem svcRead (len : LenPort) (b0 : Byte) :
    Statement (.svcRead len b0) :=
  ⟨rfl, fun _ => rfl, fun h => absurd rfl h, fun _ => rfl⟩
theorem svcWrite1 (len : LenPort) (b0 : Byte) :
    Statement (.svcWrite1 len b0) :=
  ⟨rfl, fun _ => rfl, fun h => absurd rfl h, fun _ => rfl⟩
theorem svcWrite2 (len : LenPort) (b0 : Byte) :
    Statement (.svcWrite2 len b0) :=
  ⟨rfl, fun _ => rfl, fun h => absurd rfl h, fun _ => rfl⟩
theorem svcWrite4 (len : LenPort) (b0 : Byte) :
    Statement (.svcWrite4 len b0) :=
  ⟨rfl, fun _ => rfl, fun h => absurd rfl h, fun _ => rfl⟩
theorem classify (id : CanId) :
    Statement (.classify id) :=
  ⟨rfl, fun _ => rfl, fun h => absurd rfl h, fun _ => rfl⟩
theorem nodeId (id : CanId) :
    Statement (.nodeId id) :=
  ⟨rfl, fun _ => rfl, fun h => absurd rfl h, fun _ => rfl⟩
theorem sdoCode (len : LenPort) (b0 : Byte) :
    Statement (.sdoCode len b0) :=
  ⟨rfl, fun _ => rfl, fun h => absurd rfl h, fun _ => rfl⟩
theorem sdoIndex (len : LenPort) (b1 : Byte) (b2 : Byte) :
    Statement (.sdoIndex len b1 b2) :=
  ⟨rfl, fun _ => rfl, fun h => absurd rfl h, fun _ => rfl⟩
theorem sdoSubindex (len : LenPort) (b3 : Byte) :
    Statement (.sdoSubindex len b3) :=
  ⟨rfl, fun _ => rfl, fun h => absurd rfl h, fun _ => rfl⟩
theorem packLe (v : BitVec 64) (n : Nat) :
    Statement (.packLe v n) :=
  ⟨rfl, fun _ => rfl, fun _ => rfl, fun h => absurd rfl h⟩
theorem unpackLe (bytes : List Byte) (n : Nat) :
    Statement (.unpackLe bytes n) :=
  ⟨rfl, fun _ => rfl, fun _ => rfl, fun h => absurd rfl h⟩
theorem concat (groups : List (List Byte)) :
    Statement (.concat groups) :=
  ⟨rfl, fun _ => rfl, fun _ => rfl, fun h => absurd rfl h⟩

end Sys2Proof.Laws.OneUnit
end

