-- ==== Sys2Proof/Laws/State.lean ====
section
/-!
SUPPORT. One lemma per field of the state and per operation that updates it, each true by `rfl`, so
that no proof unfolds a record update.
-/

namespace Sys2Proof.Machine

/-! `driveBuild` -/

@[simp] theorem driveBuild_req (r : BuildResult) (s : State) : (driveBuild r s).req = s.req := rfl
@[simp] theorem driveBuild_cls (r : BuildResult) (s : State) : (driveBuild r s).cls = s.cls := rfl
@[simp] theorem driveBuild_fn (r : BuildResult) (s : State) : (driveBuild r s).fn = s.fn := rfl
@[simp] theorem driveBuild_tx (r : BuildResult) (s : State) : (driveBuild r s).tx = resultPorts r := rfl

/-! `raiseInvalid` -/

@[simp] theorem raiseInvalid_req (c : Cause) (s : State) : (raiseInvalid c s).req = s.req := rfl
@[simp] theorem raiseInvalid_cls (c : Cause) (s : State) : (raiseInvalid c s).cls = s.cls := rfl
@[simp] theorem raiseInvalid_fn (c : Cause) (s : State) : (raiseInvalid c s).fn = s.fn := rfl
@[simp] theorem raiseInvalid_tx (c : Cause) (s : State) : (raiseInvalid c s).tx = invalidPorts c := rfl

/-! `driveMatch` -/

@[simp] theorem driveMatch_req (k : Nat) (b : Bool) (s : State) : (driveMatch k b s).req = s.req := rfl
@[simp] theorem driveMatch_tx (k : Nat) (b : Bool) (s : State) : (driveMatch k b s).tx = s.tx := rfl
@[simp] theorem driveMatch_fn (k : Nat) (b : Bool) (s : State) : (driveMatch k b s).fn = s.fn := rfl
@[simp] theorem driveMatch_cls_matchBits (k : Nat) (b : Bool) (s : State) : (driveMatch k b s).cls.matchBits = setMatchBit k b s.cls.matchBits := rfl
@[simp] theorem driveMatch_cls_cat (k : Nat) (b : Bool) (s : State) : (driveMatch k b s).cls.cat = s.cls.cat := rfl
@[simp] theorem driveMatch_cls_multi (k : Nat) (b : Bool) (s : State) : (driveMatch k b s).cls.multi = s.cls.multi := rfl
@[simp] theorem driveMatch_cls_node (k : Nat) (b : Bool) (s : State) : (driveMatch k b s).cls.node = s.cls.node := rfl
@[simp] theorem driveMatch_cls_svc (k : Nat) (b : Bool) (s : State) : (driveMatch k b s).cls.svc = s.cls.svc := rfl
@[simp] theorem driveMatch_cls_index (k : Nat) (b : Bool) (s : State) : (driveMatch k b s).cls.index = s.cls.index := rfl
@[simp] theorem driveMatch_cls_sub (k : Nat) (b : Bool) (s : State) : (driveMatch k b s).cls.sub = s.cls.sub := rfl

/-! `driveCategory` -/

@[simp] theorem driveCategory_req (m : BitVec 14) (s : State) : (driveCategory m s).req = s.req := rfl
@[simp] theorem driveCategory_tx (m : BitVec 14) (s : State) : (driveCategory m s).tx = s.tx := rfl
@[simp] theorem driveCategory_fn (m : BitVec 14) (s : State) : (driveCategory m s).fn = s.fn := rfl
@[simp] theorem driveCategory_cls_matchBits (m : BitVec 14) (s : State) : (driveCategory m s).cls.matchBits = m := rfl
@[simp] theorem driveCategory_cls_cat (m : BitVec 14) (s : State) : (driveCategory m s).cls.cat = categoryOf m := rfl
@[simp] theorem driveCategory_cls_multi (m : BitVec 14) (s : State) : (driveCategory m s).cls.multi = multiOf m := rfl
@[simp] theorem driveCategory_cls_node (m : BitVec 14) (s : State) : (driveCategory m s).cls.node = s.cls.node := rfl
@[simp] theorem driveCategory_cls_svc (m : BitVec 14) (s : State) : (driveCategory m s).cls.svc = s.cls.svc := rfl
@[simp] theorem driveCategory_cls_index (m : BitVec 14) (s : State) : (driveCategory m s).cls.index = s.cls.index := rfl
@[simp] theorem driveCategory_cls_sub (m : BitVec 14) (s : State) : (driveCategory m s).cls.sub = s.cls.sub := rfl

/-! `driveNode` -/

@[simp] theorem driveNode_req (n : BitVec 7) (s : State) : (driveNode n s).req = s.req := rfl
@[simp] theorem driveNode_tx (n : BitVec 7) (s : State) : (driveNode n s).tx = s.tx := rfl
@[simp] theorem driveNode_fn (n : BitVec 7) (s : State) : (driveNode n s).fn = s.fn := rfl
@[simp] theorem driveNode_cls_matchBits (n : BitVec 7) (s : State) : (driveNode n s).cls.matchBits = s.cls.matchBits := rfl
@[simp] theorem driveNode_cls_cat (n : BitVec 7) (s : State) : (driveNode n s).cls.cat = s.cls.cat := rfl
@[simp] theorem driveNode_cls_multi (n : BitVec 7) (s : State) : (driveNode n s).cls.multi = s.cls.multi := rfl
@[simp] theorem driveNode_cls_node (n : BitVec 7) (s : State) : (driveNode n s).cls.node = n := rfl
@[simp] theorem driveNode_cls_svc (n : BitVec 7) (s : State) : (driveNode n s).cls.svc = s.cls.svc := rfl
@[simp] theorem driveNode_cls_index (n : BitVec 7) (s : State) : (driveNode n s).cls.index = s.cls.index := rfl
@[simp] theorem driveNode_cls_sub (n : BitVec 7) (s : State) : (driveNode n s).cls.sub = s.cls.sub := rfl

/-! `driveSvc` -/

@[simp] theorem driveSvc_req (c : ServiceCode) (s : State) : (driveSvc c s).req = s.req := rfl
@[simp] theorem driveSvc_tx (c : ServiceCode) (s : State) : (driveSvc c s).tx = s.tx := rfl
@[simp] theorem driveSvc_fn (c : ServiceCode) (s : State) : (driveSvc c s).fn = s.fn := rfl
@[simp] theorem driveSvc_cls_matchBits (c : ServiceCode) (s : State) : (driveSvc c s).cls.matchBits = s.cls.matchBits := rfl
@[simp] theorem driveSvc_cls_cat (c : ServiceCode) (s : State) : (driveSvc c s).cls.cat = s.cls.cat := rfl
@[simp] theorem driveSvc_cls_multi (c : ServiceCode) (s : State) : (driveSvc c s).cls.multi = s.cls.multi := rfl
@[simp] theorem driveSvc_cls_node (c : ServiceCode) (s : State) : (driveSvc c s).cls.node = s.cls.node := rfl
@[simp] theorem driveSvc_cls_svc (c : ServiceCode) (s : State) : (driveSvc c s).cls.svc = svcTag c := rfl
@[simp] theorem driveSvc_cls_index (c : ServiceCode) (s : State) : (driveSvc c s).cls.index = s.cls.index := rfl
@[simp] theorem driveSvc_cls_sub (c : ServiceCode) (s : State) : (driveSvc c s).cls.sub = s.cls.sub := rfl

/-! `driveIndex` -/

@[simp] theorem driveIndex_req (v : BitVec 16) (s : State) : (driveIndex v s).req = s.req := rfl
@[simp] theorem driveIndex_tx (v : BitVec 16) (s : State) : (driveIndex v s).tx = s.tx := rfl
@[simp] theorem driveIndex_fn (v : BitVec 16) (s : State) : (driveIndex v s).fn = s.fn := rfl
@[simp] theorem driveIndex_cls_matchBits (v : BitVec 16) (s : State) : (driveIndex v s).cls.matchBits = s.cls.matchBits := rfl
@[simp] theorem driveIndex_cls_cat (v : BitVec 16) (s : State) : (driveIndex v s).cls.cat = s.cls.cat := rfl
@[simp] theorem driveIndex_cls_multi (v : BitVec 16) (s : State) : (driveIndex v s).cls.multi = s.cls.multi := rfl
@[simp] theorem driveIndex_cls_node (v : BitVec 16) (s : State) : (driveIndex v s).cls.node = s.cls.node := rfl
@[simp] theorem driveIndex_cls_svc (v : BitVec 16) (s : State) : (driveIndex v s).cls.svc = s.cls.svc := rfl
@[simp] theorem driveIndex_cls_index (v : BitVec 16) (s : State) : (driveIndex v s).cls.index = v := rfl
@[simp] theorem driveIndex_cls_sub (v : BitVec 16) (s : State) : (driveIndex v s).cls.sub = s.cls.sub := rfl

/-! `driveSub` -/

@[simp] theorem driveSub_req (v : Byte) (s : State) : (driveSub v s).req = s.req := rfl
@[simp] theorem driveSub_tx (v : Byte) (s : State) : (driveSub v s).tx = s.tx := rfl
@[simp] theorem driveSub_fn (v : Byte) (s : State) : (driveSub v s).fn = s.fn := rfl
@[simp] theorem driveSub_cls_matchBits (v : Byte) (s : State) : (driveSub v s).cls.matchBits = s.cls.matchBits := rfl
@[simp] theorem driveSub_cls_cat (v : Byte) (s : State) : (driveSub v s).cls.cat = s.cls.cat := rfl
@[simp] theorem driveSub_cls_multi (v : Byte) (s : State) : (driveSub v s).cls.multi = s.cls.multi := rfl
@[simp] theorem driveSub_cls_node (v : Byte) (s : State) : (driveSub v s).cls.node = s.cls.node := rfl
@[simp] theorem driveSub_cls_svc (v : Byte) (s : State) : (driveSub v s).cls.svc = s.cls.svc := rfl
@[simp] theorem driveSub_cls_index (v : Byte) (s : State) : (driveSub v s).cls.index = s.cls.index := rfl
@[simp] theorem driveSub_cls_sub (v : Byte) (s : State) : (driveSub v s).cls.sub = v := rfl

/-! `putPacked` -/

@[simp] theorem putPacked_req (l : List Byte) (s : State) : (putPacked l s).req = s.req := rfl
@[simp] theorem putPacked_tx (l : List Byte) (s : State) : (putPacked l s).tx = s.tx := rfl
@[simp] theorem putPacked_cls (l : List Byte) (s : State) : (putPacked l s).cls = s.cls := rfl
@[simp] theorem putPacked_fn_packed (l : List Byte) (s : State) : (putPacked l s).fn.packed = some l := rfl
@[simp] theorem putPacked_fn_unpacked (l : List Byte) (s : State) : (putPacked l s).fn.unpacked = s.fn.unpacked := rfl
@[simp] theorem putPacked_fn_joined (l : List Byte) (s : State) : (putPacked l s).fn.joined = s.fn.joined := rfl

/-! `putUnpacked` -/

@[simp] theorem putUnpacked_req (v : BitVec 64) (s : State) : (putUnpacked v s).req = s.req := rfl
@[simp] theorem putUnpacked_tx (v : BitVec 64) (s : State) : (putUnpacked v s).tx = s.tx := rfl
@[simp] theorem putUnpacked_cls (v : BitVec 64) (s : State) : (putUnpacked v s).cls = s.cls := rfl
@[simp] theorem putUnpacked_fn_packed (v : BitVec 64) (s : State) : (putUnpacked v s).fn.packed = s.fn.packed := rfl
@[simp] theorem putUnpacked_fn_unpacked (v : BitVec 64) (s : State) : (putUnpacked v s).fn.unpacked = some v := rfl
@[simp] theorem putUnpacked_fn_joined (v : BitVec 64) (s : State) : (putUnpacked v s).fn.joined = s.fn.joined := rfl

/-! `putJoined` -/

@[simp] theorem putJoined_req (r : Option (List Byte)) (s : State) : (putJoined r s).req = s.req := rfl
@[simp] theorem putJoined_tx (r : Option (List Byte)) (s : State) : (putJoined r s).tx = s.tx := rfl
@[simp] theorem putJoined_cls (r : Option (List Byte)) (s : State) : (putJoined r s).cls = s.cls := rfl
@[simp] theorem putJoined_fn_packed (r : Option (List Byte)) (s : State) : (putJoined r s).fn.packed = s.fn.packed := rfl
@[simp] theorem putJoined_fn_unpacked (r : Option (List Byte)) (s : State) : (putJoined r s).fn.unpacked = s.fn.unpacked := rfl
@[simp] theorem putJoined_fn_joined (r : Option (List Byte)) (s : State) : (putJoined r s).fn.joined = r := rfl

/-! `settle`, and through it every presentation of inputs -/

@[simp] theorem settle_req (r : Request) : (settle r).req = r := rfl
@[simp] theorem settle_tx (r : Request) : (settle r).tx = encOutputs r.enc := rfl
@[simp] theorem settle_cls (r : Request) : (settle r).cls = clsOutputs r.rx := rfl
@[simp] theorem settle_fn (r : Request) : (settle r).fn = packOutputs r.fn := rfl

/-! `presentEnc` -/

@[simp] theorem presentEnc_req_sel (q : EncReq) (s : State) : (presentEnc q s).req.sel = .encOp := rfl
@[simp] theorem presentEnc_req_enc (q : EncReq) (s : State) : (presentEnc q s).req.enc = q := rfl
@[simp] theorem presentEnc_req_rx (q : EncReq) (s : State) : (presentEnc q s).req.rx = s.req.rx := rfl
@[simp] theorem presentEnc_req_fn (q : EncReq) (s : State) : (presentEnc q s).req.fn = s.req.fn := rfl
@[simp] theorem presentEnc_tx (q : EncReq) (s : State) : (presentEnc q s).tx = encOutputs q := rfl
@[simp] theorem presentEnc_cls (q : EncReq) (s : State) : (presentEnc q s).cls = clsOutputs s.req.rx := rfl
@[simp] theorem presentEnc_fn (q : EncReq) (s : State) : (presentEnc q s).fn = packOutputs s.req.fn := rfl

/-! `presentRx` -/

@[simp] theorem presentRx_req_sel (f : RxPorts) (s : State) : (presentRx f s).req.sel = .always .classify := rfl
@[simp] theorem presentRx_req_enc (f : RxPorts) (s : State) : (presentRx f s).req.enc = s.req.enc := rfl
@[simp] theorem presentRx_req_rx (f : RxPorts) (s : State) : (presentRx f s).req.rx = f := rfl
@[simp] theorem presentRx_req_fn (f : RxPorts) (s : State) : (presentRx f s).req.fn = s.req.fn := rfl
@[simp] theorem presentRx_tx (f : RxPorts) (s : State) : (presentRx f s).tx = encOutputs s.req.enc := rfl
@[simp] theorem presentRx_cls (f : RxPorts) (s : State) : (presentRx f s).cls = clsOutputs f := rfl
@[simp] theorem presentRx_fn (f : RxPorts) (s : State) : (presentRx f s).fn = packOutputs s.req.fn := rfl

/-! `presentUse` -/

@[simp] theorem presentUse_req_sel (sel : Select) (s : State) : (presentUse sel s).req.sel = sel := rfl
@[simp] theorem presentUse_req_enc (sel : Select) (s : State) : (presentUse sel s).req.enc = s.req.enc := rfl
@[simp] theorem presentUse_req_rx (sel : Select) (s : State) : (presentUse sel s).req.rx = s.req.rx := rfl
@[simp] theorem presentUse_req_fn (sel : Select) (s : State) : (presentUse sel s).req.fn = s.req.fn := rfl
@[simp] theorem presentUse_tx (sel : Select) (s : State) : (presentUse sel s).tx = encOutputs s.req.enc := rfl
@[simp] theorem presentUse_cls (sel : Select) (s : State) : (presentUse sel s).cls = clsOutputs s.req.rx := rfl
@[simp] theorem presentUse_fn (sel : Select) (s : State) : (presentUse sel s).fn = packOutputs s.req.fn := rfl

/-! `presentPacking` -/

@[simp] theorem presentPacking_req_sel (row : AlwaysRow) (a : PackArgs) (s : State) : (presentPacking row a s).req.sel = .always row := rfl
@[simp] theorem presentPacking_req_enc (row : AlwaysRow) (a : PackArgs) (s : State) : (presentPacking row a s).req.enc = s.req.enc := rfl
@[simp] theorem presentPacking_req_rx (row : AlwaysRow) (a : PackArgs) (s : State) : (presentPacking row a s).req.rx = s.req.rx := rfl
@[simp] theorem presentPacking_req_fn (row : AlwaysRow) (a : PackArgs) (s : State) : (presentPacking row a s).req.fn = a := rfl
@[simp] theorem presentPacking_tx (row : AlwaysRow) (a : PackArgs) (s : State) : (presentPacking row a s).tx = encOutputs s.req.enc := rfl
@[simp] theorem presentPacking_cls (row : AlwaysRow) (a : PackArgs) (s : State) : (presentPacking row a s).cls = clsOutputs s.req.rx := rfl
@[simp] theorem presentPacking_fn (row : AlwaysRow) (a : PackArgs) (s : State) : (presentPacking row a s).fn = packOutputs a := rfl

/-! The two forms of ENC's outputs. -/

@[simp] theorem resultPorts_frame (f : RawFrame) : resultPorts (.frame f) = framePorts f := rfl
@[simp] theorem resultPorts_invalid (c : Cause) : resultPorts (.invalid c) = invalidPorts c := rfl

end Sys2Proof.Machine
end

