-- ==== Sys2Proof/Laws/Step.lean ====
section
/-!
SUPPORT. What one evaluation can do, said once: the outcome of each operation and of a step, for the
proofs to cite instead of unfolding.
-/

namespace Sys2Proof.Machine

/-- An operation of ENC answers a next state that differs in ENC's outputs only (R13, R14). -/
theorem exec_enc {i : Instr} (h : unitOf i = .enc) (s : State) :
    ∃ p, exec i s = .next { s with tx := p } := by
  cases i <;> first | exact ⟨_, rfl⟩ | cases h

/-- An operation of CLS answers a next state that differs in CLS's outputs only (R13, R14). -/
theorem exec_cls {i : Instr} (h : unitOf i = .cls) (s : State) :
    ∃ c, exec i s = .next { s with cls := c } := by
  cases i <;> first | exact ⟨_, rfl⟩ | cases h

/-- A packing function answers a next state that differs in the packing results only, or refuses
(R77, R78, R80). -/
theorem exec_packing {i : Instr} (h : unitOf i = .packing) (s : State) :
    (∃ r, exec i s = .next { s with fn := r }) ∨ ∃ e, exec i s = .refused e := by
  cases i with
  | packLe v n =>
    simp only [exec, execPackLe]
    split
    · exact .inl ⟨_, rfl⟩
    · exact .inr ⟨_, rfl⟩
  | unpackLe l n =>
    simp only [exec, execUnpackLe]
    split
    · split
      · exact .inl ⟨_, rfl⟩
      · exact .inr ⟨_, rfl⟩
    · exact .inr ⟨_, rfl⟩
  | concat gs =>
    simp only [exec, execConcat]
    split
    · exact .inr ⟨_, rfl⟩
    · exact .inl ⟨_, rfl⟩
  | _ => cases h

/-- `PACK_LE` inside its domain (R77). -/
theorem exec_packLe {n : Nat} (h : countInDomain n) (v : BitVec 64) (s : State) :
    exec (.packLe v n) s = .next (putPacked (packBytes v n) s) := if_pos h

/-- `UNPACK_LE` inside its domain (R78). -/
theorem exec_unpackLe {n : Nat} {l : List Byte} (h : countInDomain n) (hl : n ≤ l.length)
    (s : State) : exec (.unpackLe l n) s = .next (putUnpacked (unpackValue l n) s) :=
  (if_pos h).trans (if_pos hl)

/-- `CONCAT` of at least one group (R80). -/
theorem exec_concat {gs : List (List Byte)} (h : gs ≠ []) (s : State) :
    exec (.concat gs) s = .next (putJoined (joinIntoBuffer gs) s) := if_neg h

/-- No operation faults (93_implementation_defined.md, after U11). -/
theorem exec_no_fault (i : Instr) (s : State) (r : Fault) : exec i s ≠ .fault r := by cases r

/-- The decoder's answer for ENC is an operation of ENC, or the reserved selector (R49, R67). -/
theorem decodeEnc_cases (q : EncReq) :
    (∃ i, decodeEnc q = .ok i ∧ unitOf i = .enc) ∨ decodeEnc q = .error .reservedEncOp := by
  unfold decodeEnc
  repeat' split
  all_goals first | exact .inl ⟨_, rfl, rfl⟩ | exact .inr rfl

/-- The decoder's answer for an identifier is an operation of CLS, or no predicate (R59). -/
theorem decodeRxId_cases (id : CanId) :
    (∃ i, decodeRxId id = .ok i ∧ unitOf i = .cls) ∨ decodeRxId id = .error .noPredicate := by
  unfold decodeRxId
  split
  · rename_i r hr
    have hmem := List.mem_of_find?_eq_some hr
    refine .inl ⟨_, rfl, ?_⟩
    simp only [rxIdRows, List.mem_cons, List.not_mem_nil, or_false] at hmem
    rcases hmem with h | h | h | h | h | h | h | h | h | h | h | h | h | h | h <;> subst h <;> rfl
  · exact .inr rfl

/-- The decoder's answer for payload byte 0 is an operation of CLS, or no ServiceCode (R60). -/
theorem decodeByte0_cases (len : LenPort) (b0 : Byte) :
    (∃ i, decodeByte0 len b0 = .ok i ∧ unitOf i = .cls) ∨
      decodeByte0 len b0 = .error .noServiceCode := by
  unfold decodeByte0
  split
  · exact .inr rfl
  · split
    · rename_i r hr
      have hmem := List.mem_of_find?_eq_some hr
      refine .inl ⟨_, rfl, ?_⟩
      simp only [sdoByteRows, List.mem_cons, List.not_mem_nil, or_false] at hmem
      rcases hmem with h | h | h | h <;> subst h <;> rfl
    · exact .inr rfl

/-- What a step does, said once: the decoded operation on the block as the inputs present make it, or
what the dispatch does where there is none (R12, R67). -/
theorem step_cases (s : State) :
    (∃ i, decode s.req = .ok i ∧ step s = exec i (settle s.req)) ∨
      ∃ e, decode s.req = .error e ∧ step s = .next (runRejected e (settle s.req)) := by
  unfold step evaluate
  cases h : decode s.req with
  | ok i => exact .inl ⟨i, rfl, rfl⟩
  | error e => exact .inr ⟨e, rfl, rfl⟩

/-- A step that decodes to an operation. -/
theorem step_of_decode {s : State} {i : Instr} (h : decode s.req = .ok i) :
    step s = exec i (settle s.req) := by
  simp only [step, evaluate, h]

/-- A step whose inputs name no operation. -/
theorem step_of_reject {s : State} {e : DecodeError} (h : decode s.req = .error e) :
    step s = .next (runRejected e (settle s.req)) := by
  simp only [step, evaluate, h]

/-- Driving a bit of `cls_match` with its own predicate changes nothing where the inputs already
stand. -/
theorem driveMatch_settle {k : Nat} {b : Bool} {r : Request} (hk : k < 14)
    (h : (predicates r.rx.id).getD k false = b) : driveMatch k b (settle r) = settle r := by
  have hm : setMatchBit k b (matchVector r.rx.id) = matchVector r.rx.id :=
    setMatchBit_same hk ((matchVector_getLsbD _ hk).trans h)
  show ({ settle r with cls := { clsOutputs r.rx with
    matchBits := setMatchBit k b (matchVector r.rx.id) } } : State) = settle r
  rw [hm]
  rfl

/-- A row of format `SDOB0` gives what `SDO_CODE` gives (R105; log entry 8). -/
theorem svcRow_eq_sdoCode (c : ServiceCode) (len : LenPort) (b0 : Byte) :
    svcRow c len b0 = sdoCode len b0 := by
  unfold svcRow
  split
  · rename_i h
    obtain ⟨hl, hw⟩ := h
    cases c <;> simp [svcWire] at hw <;> subst hw <;> unfold sdoCode <;> rw [if_neg hl] <;> rfl
  · rfl

/-- The decoder and the dispatch of R67 agree: the operation ENC's inputs select drives the result
`ENC()` has for them, and selector 3 is the one neither has an operation for. -/
theorem decodeEnc_encResult (q : EncReq) :
    (∃ i, decodeEnc q = .ok i ∧ ∀ s, exec i s = .next (driveBuild (encResult q) s)) ∨
      decodeEnc q = .error .reservedEncOp ∧ encResult q = .invalid .badOp := by
  unfold decodeEnc encResult
  by_cases h0 : q.op = 0
  · exact .inl ⟨_, if_pos h0, fun s => by rw [if_pos h0]; rfl⟩
  · rw [if_neg h0, if_neg h0]
    by_cases h1 : q.op = 1
    · exact .inl ⟨_, if_pos h1, fun s => by rw [if_pos h1]; rfl⟩
    · rw [if_neg h1, if_neg h1]
      by_cases h2 : q.op = 2
      · exact .inl ⟨_, if_pos h2, fun s => by rw [if_pos h2]; rfl⟩
      · exact .inr ⟨if_neg h2, if_neg h2⟩

/-- Driving ENC's outputs with the result for its inputs changes nothing where these stand already. -/
theorem driveBuild_settle (r : Request) : driveBuild (encResult r.enc) (settle r) = settle r := rfl

/-- The row the identifier selects drives the bit its predicate gives (R98). -/
theorem exec_settle_rxId {r : Request} {i : Instr} (h : decodeRxId r.rx.id = .ok i) :
    exec i (settle r) = .next (settle r) := by
  unfold decodeRxId at h
  split at h
  · rename_i row hr
    have hmem := List.mem_of_find?_eq_some hr
    cases h
    simp only [rxIdRows, List.mem_cons, List.not_mem_nil, or_false] at hmem
    rcases hmem with h | h | h | h | h | h | h | h | h | h | h | h | h | h | h <;> subst h <;>
      exact congrArg _ (driveMatch_settle (by decide) rfl)
  · cases h

/-- The row payload byte 0 selects drives the ServiceCode of R105. -/
theorem exec_settle_byte0 {r : Request} {i : Instr}
    (h : decodeByte0 r.rx.len (byteLane r.rx.data 0) = .ok i) :
    exec i (settle r) = .next (settle r) := by
  have key : ∀ c, driveSvc (svcRow c r.rx.len (byteLane r.rx.data 0)) (settle r) = settle r := by
    intro c
    rw [svcRow_eq_sdoCode]
    rfl
  unfold decodeByte0 at h
  split at h
  · cases h
  · split at h
    · rename_i row hr
      have hmem := List.mem_of_find?_eq_some hr
      cases h
      simp only [sdoByteRows, List.mem_cons, List.not_mem_nil, or_false] at hmem
      rcases hmem with h | h | h | h <;> subst h <;> exact congrArg _ (key _)
    · cases h

/-- An evaluation of ENC leaves every output at its value for the inputs present (R13, R67). -/
theorem step_enc {s : State} (h : s.req.sel = .encOp) : step s = .next (settle s.req) := by
  have hd : decode s.req = decodeEnc s.req.enc := by simp only [decode, h]
  rcases decodeEnc_encResult s.req.enc with ⟨i, hi, he⟩ | ⟨he, hr⟩
  · rw [step_of_decode (hd.trans hi), he, driveBuild_settle]
  · rw [step_of_reject (hd.trans he), ← driveBuild_settle, hr]
    rfl

/-- An evaluation of CLS leaves every output at its value for the inputs present, whichever row of the
table it is read through (R13, R16). -/
theorem step_cls {s : State} (h : unitOfSelect s.req.sel = .cls) : step s = .next (settle s.req) := by
  rcases step_cases s with ⟨i, hd, hs⟩ | ⟨e, hd, hs⟩
  · rw [hs]
    cases hsel : s.req.sel with
    | encOp => rw [hsel] at h; cases h
    | rxId => simp only [decode, hsel] at hd; exact exec_settle_rxId hd
    | sdoByte0 => simp only [decode, hsel] at hd; exact exec_settle_byte0 hd
    | always row =>
      simp only [decode, hsel] at hd
      cases hd
      rw [hsel] at h
      cases row <;> first | rfl | cases h
  · rw [hs]
    cases e with
    | reservedEncOp =>
      cases hsel : s.req.sel with
      | encOp => rw [hsel] at h; cases h
      | rxId =>
        simp only [decode, hsel] at hd
        rcases decodeRxId_cases s.req.rx.id with ⟨i, hi, -⟩ | hi <;> rw [hi] at hd <;> cases hd
      | sdoByte0 =>
        simp only [decode, hsel] at hd
        rcases decodeByte0_cases s.req.rx.len (byteLane s.req.rx.data 0) with ⟨i, hi, -⟩ | hi <;>
          rw [hi] at hd <;> cases hd
      | always row => simp only [decode, hsel] at hd; cases hd
    | noPredicate => rfl
    | noServiceCode => rfl

/-- A use of `PACK_LE` (R77). -/
theorem step_packLe {s : State} (h : s.req.sel = .always .packLe) :
    step s = if countInDomain s.req.fn.packCount then .next (settle s.req)
      else .refused .byteCountOutsideDomain := by
  rw [step_of_decode (by simp only [decode, h]; rfl)]
  show execPackLe _ _ _ = _
  unfold execPackLe
  split
  · rename_i hc
    simp only [putPacked, settle, packOutputs, if_pos hc]
  · rfl

/-- A use of `UNPACK_LE` (R78). -/
theorem step_unpackLe {s : State} (h : s.req.sel = .always .unpackLe) :
    step s = if countInDomain s.req.fn.unpackCount then
        if s.req.fn.unpackCount ≤ s.req.fn.unpackBytes.length then .next (settle s.req)
        else .refused .sequenceTooShort
      else .refused .byteCountOutsideDomain := by
  rw [step_of_decode (by simp only [decode, h]; rfl)]
  show execUnpackLe _ _ _ = _
  unfold execUnpackLe
  split
  · rename_i hc
    split
    · rename_i hl
      simp only [putUnpacked, settle, packOutputs, if_pos (And.intro hc hl)]
    · rfl
  · rfl

/-- A use of `CONCAT` (R80). -/
theorem step_concat {s : State} (h : s.req.sel = .always .concat) :
    step s = if s.req.fn.groups = [] then .refused .noGroups else .next (settle s.req) := by
  rw [step_of_decode (by simp only [decode, h]; rfl)]
  show execConcat _ _ = _
  unfold execConcat
  split
  · rfl
  · rename_i hg
    simp only [putJoined, settle, packOutputs, if_neg hg]

/-- Everything a step can answer: the block as the inputs present make it, or, of a packing function
alone, a refusal (R12, R13). -/
theorem step_outcome (s : State) :
    step s = .next (settle s.req) ∨ unitOfSelect s.req.sel = .packing ∧ ∃ e, step s = .refused e := by
  cases hsel : s.req.sel with
  | encOp => exact .inl (step_enc hsel)
  | rxId => exact .inl (step_cls (by rw [hsel]; rfl))
  | sdoByte0 => exact .inl (step_cls (by rw [hsel]; rfl))
  | always row =>
    cases row with
    | packLe =>
      rw [step_packLe hsel]
      split
      · exact .inl rfl
      · exact .inr ⟨rfl, _, rfl⟩
    | unpackLe =>
      rw [step_unpackLe hsel]
      split
      · split
        · exact .inl rfl
        · exact .inr ⟨rfl, _, rfl⟩
      · exact .inr ⟨rfl, _, rfl⟩
    | concat =>
      rw [step_concat hsel]
      split
      · exact .inr ⟨rfl, _, rfl⟩
      · exact .inl rfl
    | classify | nodeId | sdoCode | sdoIndex | sdoSubindex =>
      exact .inl (step_cls (by rw [hsel]; rfl))

end Sys2Proof.Machine
end

