-- ==== Sys2Proof/Tests/Slice0.lean ====
section
/-!
SUPPORT. The model's own tests. Expected results are the spec's: the decode tables of 30_encoding.md,
the examples and vectors of 95_test_vectors.md (ids S, B, Q, M, K, X in the comments), and the
boundaries named in the rules. Each runs at most one step.
-/

namespace Sys2Proof.Tests

open Sys2Proof Sys2Proof.Machine

/-! ### Helpers -/

/-- An ENC request presented to the machine as it stands at reset. -/
def onEnc (q : EncReq) : State := presentEnc q State.reset

/-- A frame presented to CLS. -/
def onRx (id : CanId) (len : LenPort) (data : DataPort) : State :=
  presentRx { id := id, len := len, data := data } State.reset

/-- The next state of an outcome. -/
def nextOf (o : Host.Outcome State Fault Refusal) : Option State :=
  match o with
  | .next t => some t
  | .fault _ => none
  | .refused _ => none

/-- ENC's outputs after one step. -/
def txAfter (s : State) : Option EncPorts := (nextOf (step s)).map (·.tx)

/-- CLS's outputs after one step. -/
def clsAfter (s : State) : Option ClsPorts := (nextOf (step s)).map (·.cls)

/-- A BUILD_GENERIC request (R64). -/
def generic (id : CanId) (len : LenPort) (data : DataPort) : EncReq :=
  { EncReq.zero with op := 0, id := id, len := len, data := data }

/-- A BUILD_SDO request (R64). -/
def sdo (svc : BitVec 3) (id : CanId) (index : BitVec 16) (sub : Byte) : EncReq :=
  { EncReq.zero with op := 1, svc := svc, id := id, index := index, sub := sub }

/-- A BUILD_NMT request (R64). -/
def nmt (cmd : BitVec 4) (node : Byte) : EncReq := { EncReq.zero with op := 2, cmd := cmd, node := node }

/-! ### Ill-formed operations are refused, one per check of WellFormed -/

theorem test_illFormed_mNmt0 : WellFormed (.mNmt0 0x001) = false := by decide
theorem test_illFormed_mNmthb : WellFormed (.mNmthb 0x780) = false := by decide
theorem test_illFormed_mEmcy : WellFormed (.mEmcy 0x100) = false := by decide
theorem test_illFormed_mLss7E4 : WellFormed (.mLss7E4 0x7E5) = false := by decide
theorem test_illFormed_mLss7E5 : WellFormed (.mLss7E5 0x7E6) = false := by decide
theorem test_illFormed_mTpdo1 : WellFormed (.mTpdo1 0x17F) = false := by decide
theorem test_illFormed_mTpdo2 : WellFormed (.mTpdo2 0x300) = false := by decide
theorem test_illFormed_mTpdo3 : WellFormed (.mTpdo3 0x37F) = false := by decide
theorem test_illFormed_mTpdo4 : WellFormed (.mTpdo4 0x500) = false := by decide
theorem test_illFormed_mRpdo1 : WellFormed (.mRpdo1 0x1FF) = false := by decide
theorem test_illFormed_mRpdo2 : WellFormed (.mRpdo2 0x380) = false := by decide
theorem test_illFormed_mRpdo3 : WellFormed (.mRpdo3 0x480) = false := by decide
theorem test_illFormed_mRpdo4 : WellFormed (.mRpdo4 0x580) = false := by decide
theorem test_illFormed_mSdoreq : WellFormed (.mSdoreq 0x680) = false := by decide
theorem test_illFormed_mSdoresp : WellFormed (.mSdoresp 0x600) = false := by decide
theorem test_illFormed_svcRead_byte : WellFormed (.svcRead 8 0x41) = false := by decide
theorem test_illFormed_svcWrite1_byte : WellFormed (.svcWrite1 8 0x2E) = false := by decide
theorem test_illFormed_svcWrite2_byte : WellFormed (.svcWrite2 8 0x2F) = false := by decide
theorem test_illFormed_svcWrite4_byte : WellFormed (.svcWrite4 8 0x22) = false := by decide
theorem test_illFormed_svcRead_empty : WellFormed (.svcRead 0 0x40) = false := by decide
theorem test_illFormed_svcWrite1_empty : WellFormed (.svcWrite1 0 0x2F) = false := by decide
theorem test_illFormed_svcWrite2_empty : WellFormed (.svcWrite2 0 0x2B) = false := by decide
theorem test_illFormed_svcWrite4_empty : WellFormed (.svcWrite4 0 0x23) = false := by decide
theorem test_illFormed_packLe :
    WellFormed (.packLe 0 0) = false ∧ WellFormed (.packLe 0 9) = false := by decide
theorem test_illFormed_unpackLe_count :
    WellFormed (.unpackLe [1] 0) = false ∧ WellFormed (.unpackLe [1, 2, 3, 4, 5, 6, 7, 8, 9] 9) = false := by
  decide
theorem test_illFormed_unpackLe_short : WellFormed (.unpackLe [0x56] 2) = false := by decide
theorem test_illFormed_concat : WellFormed (.concat []) = false := by decide

/-! ### Decoding: each row's word written out from the spec's tables -/

-- Format ENCOP (R49): the selector in the low two bits, operand ports zero.
theorem test_decode_buildGeneric : decodeTableWord 8 0b00 = some (.buildGeneric 0 0 0) := by decide
theorem test_decode_buildSdo : decodeTableWord 8 0b01 = some (.buildSdo 0 0 0 0) := by decide
theorem test_decode_buildNmt : decodeTableWord 8 0b10 = some (.buildNmt 0 0) := by decide
theorem test_decode_reservedOp : decodeTableWord 8 0b11 = none := by decide

-- Format ENCOP with operands (R56): each port goes to its operand.
theorem test_decode_generic_operands :
    decode (encRequest (generic 0x123 2 0xADDE)) = .ok (.buildGeneric 0x123 2 0xADDE) := rfl
theorem test_decode_sdo_operands :
    decode (encRequest (sdo 2 0x600 0x3456 0x78)) = .ok (.buildSdo 2 0x600 0x3456 0x78) := rfl
theorem test_decode_nmt_operands :
    decode (encRequest (nmt 3 0x12)) = .ok (.buildNmt 3 0x12) := rfl

-- Format RXID (R59): zext_12(rx_id), function bits [10:7] then node bits [6:0].
theorem test_decode_mNmt0 : decodeTableWord 16 0b0000_0000_0000 = some (.mNmt0 0x000) := by decide
theorem test_decode_mNmthb : decodeTableWord 16 0b0111_0001_0010 = some (.mNmthb 0x712) := by decide
theorem test_decode_mEmcy : decodeTableWord 16 0b0000_1000_0001 = some (.mEmcy 0x081) := by decide
theorem test_decode_mLss7E4 : decodeTableWord 16 0b0111_1110_0100 = some (.mLss7E4 0x7E4) := by decide
theorem test_decode_mLss7E5 : decodeTableWord 16 0b0111_1110_0101 = some (.mLss7E5 0x7E5) := by decide
theorem test_decode_mTpdo1 : decodeTableWord 16 0b0001_1000_0001 = some (.mTpdo1 0x181) := by decide
theorem test_decode_mTpdo2 : decodeTableWord 16 0b0010_1111_1111 = some (.mTpdo2 0x2FF) := by decide
theorem test_decode_mTpdo3 : decodeTableWord 16 0b0011_1000_0000 = some (.mTpdo3 0x380) := by decide
theorem test_decode_mTpdo4 : decodeTableWord 16 0b0100_1010_0000 = some (.mTpdo4 0x4A0) := by decide
theorem test_decode_mRpdo1 : decodeTableWord 16 0b0010_0000_0001 = some (.mRpdo1 0x201) := by decide
theorem test_decode_mRpdo2 : decodeTableWord 16 0b0011_0111_1111 = some (.mRpdo2 0x37F) := by decide
theorem test_decode_mRpdo3 : decodeTableWord 16 0b0100_0000_0000 = some (.mRpdo3 0x400) := by decide
theorem test_decode_mRpdo4 : decodeTableWord 16 0b0101_0111_1111 = some (.mRpdo4 0x57F) := by decide
theorem test_decode_mSdoreq : decodeTableWord 16 0b0110_0000_0000 = some (.mSdoreq 0x600) := by decide
theorem test_decode_mSdoresp : decodeTableWord 16 0b0101_1111_1111 = some (.mSdoresp 0x5FF) := by decide
theorem test_decode_noPredicate :
    decodeTableWord 16 0x001 = none ∧ decodeTableWord 16 0x17F = none ∧
    decodeTableWord 16 0x780 = none ∧ decodeTableWord 16 0x7E6 = none := by decide

-- Format SDOB0 (R51, R60): all eight bits compared.
theorem test_decode_svcRead : decodeTableWord 8 0b0100_0000 = some (.svcRead 1 0x40) := by decide
theorem test_decode_svcWrite1 : decodeTableWord 8 0b0010_1111 = some (.svcWrite1 1 0x2F) := by decide
theorem test_decode_svcWrite2 : decodeTableWord 8 0b0010_1011 = some (.svcWrite2 1 0x2B) := by decide
theorem test_decode_svcWrite4 : decodeTableWord 8 0b0010_0011 = some (.svcWrite4 1 0x23) := by decide
theorem test_decode_unknownByte :
    decodeTableWord 8 0x22 = none ∧ decodeTableWord 8 0x41 = none ∧ decodeTableWord 8 0x60 = none := by
  decide

-- Format ALWAYS (R66): no pattern bits; the operands are the ports the rule names (S1's frame).
theorem test_decode_classify :
    decode (rxRequest (.always .classify) ⟨0x600, 4, 0x7834562F⟩) = .ok (.classify 0x600) := rfl
theorem test_decode_nodeId :
    decode (rxRequest (.always .nodeId) ⟨0x612, 4, 0x7834562F⟩) = .ok (.nodeId 0x612) := rfl
theorem test_decode_sdoCode :
    decode (rxRequest (.always .sdoCode) ⟨0x600, 4, 0x7834562F⟩) = .ok (.sdoCode 4 0x2F) := rfl
theorem test_decode_sdoIndex :
    decode (rxRequest (.always .sdoIndex) ⟨0x600, 4, 0x7834562F⟩) = .ok (.sdoIndex 4 0x56 0x34) := rfl
theorem test_decode_sdoSubindex :
    decode (rxRequest (.always .sdoSubindex) ⟨0x600, 4, 0x7834562F⟩) = .ok (.sdoSubindex 4 0x78) := rfl
theorem test_decode_packLe :
    decode (packRequest .packLe { PackArgs.zero with packValue := 0x3456, packCount := 2 }) =
      .ok (.packLe 0x3456 2) := rfl
theorem test_decode_unpackLe :
    decode (packRequest .unpackLe { PackArgs.zero with unpackBytes := [0x56, 0x34], unpackCount := 2 }) =
      .ok (.unpackLe [0x56, 0x34] 2) := rfl
theorem test_decode_concat :
    decode (packRequest .concat { PackArgs.zero with groups := [[0x2F], [0x56, 0x34]] }) =
      .ok (.concat [[0x2F], [0x56, 0x34]]) := rfl

/-! ### One step on the spec's vectors -/

-- B4: bytes beyond the length ignored on the way in, zero on the way out.
theorem test_buildGeneric_B4 :
    txAfter (onEnc (generic 0x181 3 0xAABBCCDDEE332211)) = some ⟨1, 0, 0x181, 3, 0x332211⟩ := by decide
-- B7: not truncated to 8.
theorem test_buildGeneric_B7 :
    txAfter (onEnc (generic 0x123 9 0x1122334455667788)) = some ⟨0, 1, 0, 0, 0⟩ := by decide
-- Q2 with Q11's values on the ignored ports.
theorem test_buildSdo_Q11 :
    txAfter (onEnc { sdo 2 0x600 0x3456 0x78 with data := 0xFFFFFFFFFFFFFFFF, cmd := 15 }) =
      some ⟨1, 0, 0x600, 8, 0x7834562F⟩ := by decide
-- Q10: a reserved tag.
theorem test_buildSdo_Q10 : txAfter (onEnc (sdo 5 0x600 0x1234 0x01)) = some ⟨0, 3, 0, 0, 0⟩ := by decide
-- M16: the source's example S2, with enc_id ignored.
theorem test_buildNmt_M16 :
    txAfter (onEnc { nmt 3 0x12 with id := 0x7FF }) = some ⟨1, 0, 0, 2, 0x1281⟩ := by decide
-- M8: the state variant "stopped", not the command of that name.
theorem test_buildNmt_M8 : txAfter (onEnc (nmt 9 0x12)) = some ⟨0, 2, 0, 0, 0⟩ := by decide
-- M1, M2, M3, M5: the G1 defaults, which the machine itself does not use.
theorem test_nmtDefaults :
    [0, 1, 2, 4].map (fun c => resultPorts (buildNmt defaultNmtWires c 0x12)) =
      [⟨1, 0, 0, 2, 0x1201⟩, ⟨1, 0, 0, 2, 0x1202⟩, ⟨1, 0, 0, 2, 0x1280⟩, ⟨1, 0, 0, 2, 0x1282⟩] := by decide
-- M17.
theorem test_reservedOp_M17 :
    txAfter (onEnc { sdo 2 0x600 0x3456 0x78 with op := 3 }) = some ⟨0, 4, 0, 0, 0⟩ := by decide
-- S1: one evaluation of CLS yields everything together.
theorem test_cls_S1 : clsAfter (onRx 0x600 4 0x7834562F) = some ⟨0x1000, 4, 0, 0, 2, 0x3456, 0x78⟩ := by decide
-- S2: an NMT command frame.
theorem test_cls_S2 : clsAfter (onRx 0x000 2 0x1281) = some ⟨0x0001, 1, 0, 0, 0, 0, 0⟩ := by decide
-- X3: nothing is read of an empty frame.
theorem test_cls_X3 : clsAfter (onRx 0x600 0 0x78345640) = some ⟨0x1000, 4, 0, 0, 0, 0, 0⟩ := by decide
-- X8: an index at length 3, no subindex.
theorem test_cls_X8 : clsAfter (onRx 0x601 3 0x7834562B) = some ⟨0x1000, 4, 0, 1, 3, 0x3456, 0⟩ := by decide
-- X14: 0x22 is near 0x23 and unknown; the other fields are still extracted.
theorem test_cls_X14 :
    clsAfter (onRx 0x601 8 0x01123422) = some ⟨0x1000, 4, 0, 1, 0, 0x1234, 0x01⟩ := by decide
-- X18: length 15 behaves as 8.
theorem test_cls_X18 :
    clsAfter (onRx 0x601 15 0x0112342F) = some ⟨0x1000, 4, 0, 1, 2, 0x1234, 0x01⟩ := by decide

-- R13, R27: with new inputs on both units, every output is already that of the new inputs, and a step on
-- CLS leaves ENC's at the value for ENC's (Q2 on ENC, S1 on CLS; B7 before on ENC).
theorem test_outputs_follow_inputs :
    (onRx 0x600 4 0x7834562F).cls = ⟨0x1000, 4, 0, 0, 2, 0x3456, 0x78⟩ ∧
    (presentEnc (sdo 2 0x600 0x3456 0x78) (onEnc (generic 0x123 9 0))).tx = ⟨1, 0, 0x600, 8, 0x7834562F⟩ ∧
    txAfter (presentRx ⟨0x600, 4, 0x7834562F⟩
        (presentEnc (sdo 2 0x600 0x3456 0x78) (onEnc (generic 0x123 9 0)))) =
      some ⟨1, 0, 0x600, 8, 0x7834562F⟩ := by decide

/-- `cls_match` after one meaning, from a state whose bits are all clear or all set. -/
def matchAfter (i : Instr) (m : BitVec 14) : Option (BitVec 14) :=
  (nextOf (exec i { State.reset with cls := { ClsPorts.atReset with matchBits := m } })).map
    (·.cls.matchBits)

-- Each predicate sets its own bit (R55) on an identifier of its range and clears it on a neighbour's
-- (95_test_vectors.md 2.5).
theorem test_mNmt0 :
    matchAfter (.mNmt0 0x000) 0 = some 0x1 ∧ matchAfter (.mNmt0 0x001) 0x3FFF = some 0x3ffe := by decide
theorem test_mNmthb :
    matchAfter (.mNmthb 0x77F) 0 = some 0x2 ∧ matchAfter (.mNmthb 0x6FF) 0x3FFF = some 0x3ffd := by decide
theorem test_mEmcy :
    matchAfter (.mEmcy 0x080) 0 = some 0x4 ∧ matchAfter (.mEmcy 0x07F) 0x3FFF = some 0x3ffb := by decide
theorem test_mLss7E4 :
    matchAfter (.mLss7E4 0x7E5) 0 = some 0x8 ∧ matchAfter (.mLss7E4 0x7E3) 0x3FFF = some 0x3ff7 := by decide
theorem test_mLss7E5 :
    matchAfter (.mLss7E5 0x7E4) 0 = some 0x8 ∧ matchAfter (.mLss7E5 0x7E6) 0x3FFF = some 0x3ff7 := by decide
theorem test_mTpdo1 :
    matchAfter (.mTpdo1 0x1FF) 0 = some 0x10 ∧ matchAfter (.mTpdo1 0x200) 0x3FFF = some 0x3fef := by decide
theorem test_mTpdo2 :
    matchAfter (.mTpdo2 0x280) 0 = some 0x20 ∧ matchAfter (.mTpdo2 0x27F) 0x3FFF = some 0x3fdf := by decide
theorem test_mTpdo3 :
    matchAfter (.mTpdo3 0x3FF) 0 = some 0x40 ∧ matchAfter (.mTpdo3 0x400) 0x3FFF = some 0x3fbf := by decide
theorem test_mTpdo4 :
    matchAfter (.mTpdo4 0x480) 0 = some 0x80 ∧ matchAfter (.mTpdo4 0x47F) 0x3FFF = some 0x3f7f := by decide
theorem test_mRpdo1 :
    matchAfter (.mRpdo1 0x200) 0 = some 0x100 ∧ matchAfter (.mRpdo1 0x1FF) 0x3FFF = some 0x3eff := by decide
theorem test_mRpdo2 :
    matchAfter (.mRpdo2 0x37F) 0 = some 0x200 ∧ matchAfter (.mRpdo2 0x380) 0x3FFF = some 0x3dff := by decide
theorem test_mRpdo3 :
    matchAfter (.mRpdo3 0x400) 0 = some 0x400 ∧ matchAfter (.mRpdo3 0x3FF) 0x3FFF = some 0x3bff := by decide
theorem test_mRpdo4 :
    matchAfter (.mRpdo4 0x500) 0 = some 0x800 ∧ matchAfter (.mRpdo4 0x580) 0x3FFF = some 0x37ff := by decide
theorem test_mSdoreq :
    matchAfter (.mSdoreq 0x67F) 0 = some 0x1000 ∧ matchAfter (.mSdoreq 0x680) 0x3FFF = some 0x2fff := by decide
theorem test_mSdoresp :
    matchAfter (.mSdoresp 0x580) 0 = some 0x2000 ∧ matchAfter (.mSdoresp 0x57F) 0x3FFF = some 0x1fff := by decide

-- The four rows of SDOB0 on a matching and on another frame (R105).
theorem test_svcRead :
    (nextOf (exec (.svcRead 1 0x40) State.reset)).map (·.cls.svc) = some 1 ∧
    (nextOf (exec (.svcRead 1 0x2F) State.reset)).map (·.cls.svc) = some 2 := by decide
theorem test_svcWrite1 :
    (nextOf (exec (.svcWrite1 1 0x2F) State.reset)).map (·.cls.svc) = some 2 ∧
    (nextOf (exec (.svcWrite1 1 0x40) State.reset)).map (·.cls.svc) = some 1 := by decide
theorem test_svcWrite2 :
    (nextOf (exec (.svcWrite2 1 0x2B) State.reset)).map (·.cls.svc) = some 3 ∧
    (nextOf (exec (.svcWrite2 1 0x2F) State.reset)).map (·.cls.svc) = some 2 := by decide
theorem test_svcWrite4 :
    (nextOf (exec (.svcWrite4 1 0x23) State.reset)).map (·.cls.svc) = some 4 ∧
    (nextOf (exec (.svcWrite4 1 0x2F) State.reset)).map (·.cls.svc) = some 2 := by decide
theorem test_classify :
    (nextOf (exec (.classify 0x7E4) State.reset)).map (·.cls) = some ⟨0x0008, 3, 0, 0, 0, 0, 0⟩ ∧
    (nextOf (exec (.classify 0x100) State.reset)).map (·.cls) = some ⟨0x0000, 0, 0, 0, 0, 0, 0⟩ := by decide
theorem test_nodeId :
    (nextOf (exec (.nodeId 0x612) State.reset)).map (·.cls.node) = some 0x12 ∧
    (nextOf (exec (.nodeId 0x7FF) State.reset)).map (·.cls.node) = some 0x7F := by decide
theorem test_sdoCode :
    (nextOf (exec (.sdoCode 0 0x40) State.reset)).map (·.cls.svc) = some 0 ∧
    (nextOf (exec (.sdoCode 15 0x23) State.reset)).map (·.cls.svc) = some 4 := by decide
theorem test_sdoIndex :
    (nextOf (exec (.sdoIndex 2 0x56 0x34) State.reset)).map (·.cls.index) = some 0 ∧
    (nextOf (exec (.sdoIndex 3 0x56 0x34) State.reset)).map (·.cls.index) = some 0x3456 := by decide
theorem test_sdoSubindex :
    (nextOf (exec (.sdoSubindex 3 0x78) State.reset)).map (·.cls.sub) = some 0 ∧
    (nextOf (exec (.sdoSubindex 4 0x78) State.reset)).map (·.cls.sub) = some 0x78 := by decide
-- K6 and K8.
theorem test_packLe :
    (nextOf (exec (.packLe 0x1234 1) State.reset)).map (·.fn.packed) = some (some [0x34]) ∧
    (nextOf (exec (.packLe 0x0102030405060708 8) State.reset)).map (·.fn.packed) =
      some (some [0x08, 0x07, 0x06, 0x05, 0x04, 0x03, 0x02, 0x01]) := by decide
-- K10 and K12.
theorem test_unpackLe :
    (nextOf (exec (.unpackLe [0xFF, 0xFF] 2) State.reset)).map (·.fn.unpacked) = some (some 65535) ∧
    (nextOf (exec (.unpackLe [0x78, 0x56, 0x34, 0x12] 4) State.reset)).map (·.fn.unpacked) =
      some (some 0x12345678) := by decide
-- K15, and a total of nine bytes (R81).
theorem test_concat :
    (nextOf (exec (.concat [[0x2F], [0x56, 0x34], [0x78, 0, 0, 0, 0]]) State.reset)).map (·.fn.joined) =
      some (some [0x2F, 0x56, 0x34, 0x78, 0, 0, 0, 0]) ∧
    (nextOf (exec (.concat [[1, 2, 3, 4, 5, 6, 7, 8], [9]]) State.reset)).map (·.fn.joined) =
      some none := by decide

/-! ### Witnesses: concrete inputs that meet the hypotheses of the statements, clause by clause -/

theorem test_witness_DecodeOfEncode :
    WellFormed (.mSdoresp 0x5FF) = true ∧ WellFormed (.unpackLe [1, 2, 3, 4, 5, 6, 7, 8] 8) = true := by decide
theorem test_witness_DecodedIsWellFormed :
    unitOfSelect (onRx 0x77F 0 0).req.sel ≠ .packing ∧
      decode (onRx 0x77F 0 0).req = .ok (.classify 0x77F) := ⟨by decide, rfl⟩
theorem test_witness_RowOrderImmaterial_id :
    (⟨0xF80, 0x700, .mNmthb⟩ : RxIdRow) ∈ rxIdRows ∧ ((0x77F : CanId).setWidth 12 &&& 0xF80 = (0x700 : BitVec 12)) := ⟨by simp [rxIdRows], by decide⟩
theorem test_witness_RowOrderImmaterial_byte :
    (⟨0x23, .svcWrite4⟩ : ByteRow) ∈ sdoByteRows ∧ (15 : LenPort) ≠ 0 := ⟨by simp [sdoByteRows], by decide⟩
theorem test_witness_FetchWordIsDecoded :
    decodeTableWord 16 0x7E5 = some (.mLss7E5 0x7E5) := by decide
theorem test_witness_StepRunsDecoded :
    decode (onEnc (sdo 1 0x600 0 0)).req = .ok (.buildSdo 1 0x600 0 0) ∧
      WellFormed (.buildSdo 1 0x600 0 0) = true ∧ Settled (onEnc (sdo 1 0x600 0 0)) := ⟨rfl, rfl, (by decide : onEnc (sdo 1 0x600 0 0) = reference (onEnc (sdo 1 0x600 0 0)).req)⟩
theorem test_witness_BuildGenericResult_legal :
    (1 ≤ (1 : LenPort).toNat ∧ (1 : LenPort).toNat ≤ 8) ∧ (1 ≤ (8 : LenPort).toNat ∧ (8 : LenPort).toNat ≤ 8) := by decide
theorem test_witness_BuildGenericResult_refused :
    (0 : LenPort).toNat = 0 ∧ 8 < (9 : LenPort).toNat ∧ 8 < (15 : LenPort).toNat := by decide
theorem test_witness_BuildGenericResult_ignored :
    ∀ i < (3 : LenPort).toNat, (0xAA332211 : DataPort).extractLsb' (8 * i) 8 =
      (0xBB332211 : DataPort).extractLsb' (8 * i) 8 := by decide
theorem test_witness_BuildSdoResult_legal :
    ((1 : BitVec 3), (0x40 : Byte)) ∈ [((1 : BitVec 3), (0x40 : Byte)), (2, 0x2F), (3, 0x2B), (4, 0x23)] ∧
    ((4 : BitVec 3), (0x23 : Byte)) ∈ [((1 : BitVec 3), (0x40 : Byte)), (2, 0x2F), (3, 0x2B), (4, 0x23)] := by decide
theorem test_witness_BuildSdoResult_refused :
    (0 : BitVec 3) = 0 ∧ 4 < (5 : BitVec 3).toNat ∧ 4 < (7 : BitVec 3).toNat := by decide
theorem test_witness_BuildNmtResult_legal :
    ((0 : BitVec 4), Config.nmtWires.operational) ∈
      [((0 : BitVec 4), Config.nmtWires.operational), (1, Config.nmtWires.stopped),
       (2, Config.nmtWires.preoperational), (3, (0x81 : Byte)), (4, Config.nmtWires.resetComm)] ∧
    ((4 : BitVec 4), Config.nmtWires.resetComm) ∈
      [((0 : BitVec 4), Config.nmtWires.operational), (1, Config.nmtWires.stopped),
       (2, Config.nmtWires.preoperational), (3, (0x81 : Byte)), (4, Config.nmtWires.resetComm)] := by simp
theorem test_witness_BuildNmtResult_refused :
    4 < (5 : BitVec 4).toNat ∧ 4 < (15 : BitVec 4).toNat := by decide
theorem test_witness_EncDispatch :
    (onEnc (generic 1 8 0)).req.sel = .encOp ∧ (onEnc (generic 1 8 0)).req.enc.op = 0 ∧
    (onEnc (sdo 1 1 1 1)).req.enc.op = 1 ∧ (onEnc (nmt 3 1)).req.enc.op = 2 ∧
    (onEnc { EncReq.zero with op := 3 }).req.enc.op = 3 := by decide
theorem test_witness_InvalidCauses :
    (onEnc (generic 1 9 0)).req.sel = .encOp ∧ 8 < (onEnc (generic 1 9 0)).req.enc.len.toNat ∧
    4 < (onEnc (nmt 5 1)).req.enc.cmd.toNat ∧ (onEnc (sdo 0 1 1 1)).req.enc.svc.toNat = 0 ∧
    4 < (onEnc (sdo 5 1 1 1)).req.enc.svc.toNat ∧ unitOfSelect (onRx 0 0 0).req.sel = .cls := by decide
theorem test_witness_BuiltFrameIsLegal :
    (onEnc (nmt 3 0xFF)).req.sel = .encOp ∧ (txAfter (onEnc (nmt 3 0xFF))).map (·.valid) = some 1 := by decide
theorem test_witness_IgnoredPortsHaveNoEffect_generic :
    SameOperands (generic 1 1 0x2211) { generic 1 1 0x3311 with cmd := 9 } := ⟨rfl, fun _ => ⟨rfl, rfl, by decide⟩, fun h => absurd h (by decide), fun h => absurd h (by decide)⟩
theorem test_witness_IgnoredPortsHaveNoEffect_sdo :
    SameOperands (sdo 1 2 3 4) { sdo 1 2 3 4 with len := 9, node := 1 } := ⟨rfl, fun h => absurd h (by decide), fun _ => ⟨rfl, rfl, rfl, rfl⟩, fun h => absurd h (by decide)⟩
theorem test_witness_IgnoredPortsHaveNoEffect_nmt :
    SameOperands (nmt 4 5) { nmt 4 5 with id := 0x7FF, svc := 7 } := ⟨rfl, fun h => absurd h (by decide), fun h => absurd h (by decide), fun _ => ⟨rfl, rfl⟩⟩
theorem test_witness_IgnoredPortsHaveNoEffect_legal :
    (onEnc { sdo 4 1 1 1 with cmd := 9 }).req.enc.svc.toNat ≤ 4 ∧ (onEnc (nmt 4 1)).req.enc.cmd.toNat ≤ 4 ∧
    1 ≤ (onEnc (generic 1 1 0)).req.enc.len.toNat ∧ (onEnc (generic 1 8 0)).req.enc.len.toNat ≤ 8 := by decide
theorem test_witness_BuiltFrameIsTheRequested :
    ((3 : BitVec 3), (0x2B : Byte)) ∈ [((1 : BitVec 3), (0x40 : Byte)), (2, 0x2F), (3, 0x2B), (4, 0x23)] ∧
    ((3 : BitVec 4), (0x81 : Byte)) ∈
      [((0 : BitVec 4), Config.nmtWires.operational), (1, Config.nmtWires.stopped),
       (2, Config.nmtWires.preoperational), (3, (0x81 : Byte)), (4, Config.nmtWires.resetComm)] := by simp
theorem test_witness_FrameOnPorts :
    buildGeneric 0x7FF 1 0xFF = .frame ⟨0x7FF, [0xFF]⟩ ∧
    buildSdo 1 0x601 0x1000 0 = .frame ⟨0x601, [0x40, 0, 0x10, 0, 0, 0, 0, 0]⟩ ∧
    buildNmt Config.nmtWires 3 0x12 = .frame ⟨0, [0x81, 0x12]⟩ := by decide
theorem test_witness_RangePredicates :
    ((0x77F : CanId).setWidth 12 &&& 0xF80 = (0x700 : BitVec 12)) ∧ ((0x080 : CanId).setWidth 12 &&& 0xF80 = (0x080 : BitVec 12)) ∧
    ((0x180 : CanId).setWidth 12 &&& 0xF80 = (0x180 : BitVec 12)) ∧ ((0x2FF : CanId).setWidth 12 &&& 0xF80 = (0x280 : BitVec 12)) ∧
    ((0x380 : CanId).setWidth 12 &&& 0xF80 = (0x380 : BitVec 12)) ∧ ((0x4FF : CanId).setWidth 12 &&& 0xF80 = (0x480 : BitVec 12)) ∧
    ((0x27F : CanId).setWidth 12 &&& 0xF80 = (0x200 : BitVec 12)) ∧ ((0x300 : CanId).setWidth 12 &&& 0xF80 = (0x300 : BitVec 12)) ∧
    ((0x47F : CanId).setWidth 12 &&& 0xF80 = (0x400 : BitVec 12)) ∧ ((0x500 : CanId).setWidth 12 &&& 0xF80 = (0x500 : BitVec 12)) ∧
    ((0x67F : CanId).setWidth 12 &&& 0xF80 = (0x600 : BitVec 12)) ∧ ((0x580 : CanId).setWidth 12 &&& 0xF80 = (0x580 : BitVec 12)) := by decide
theorem test_witness_ClassifyResult_one :
    classRows[3]? = some (0xFFF, [0x7E4, 0x7E5], 3) ∧
    ((0x7E5 : CanId).setWidth 12 &&& 0xFFF) ∈ ([0x7E4, 0x7E5] : List (BitVec 12)) ∧
    ∀ j < 14, ∀ row, classRows[j]? = some row →
      ((0x7E5 : CanId).setWidth 12 &&& row.1) ∈ row.2.1 → j = 3 := by
  refine ⟨rfl, by decide, ?_⟩
  intro j hj row hr hm
  have key : ∀ j : Fin 14, ((0x7E5 : CanId).setWidth 12 &&& (classRows.get j).1) ∈ (classRows.get j).2.1 →
      j.val = 3 := by decide
  obtain ⟨hk, rfl⟩ := List.getElem?_eq_some_iff.1 hr
  exact key ⟨j, hk⟩ hm
theorem test_witness_ClassifyResult_none :
    ∀ row ∈ classRows, ¬ ((0x680 : CanId).setWidth 12 &&& row.1) ∈ row.2.1 := by decide
theorem test_witness_ClassDependsOnIdAlone :
    unitOfSelect (onRx 0x7FF 0 0).req.sel = .cls ∧ unitOfSelect (onRx 0x7FF 15 1).req.sel = .cls ∧
    (onRx 0x7FF 0 0).req.rx.id = (onRx 0x7FF 15 1).req.rx.id := by decide
theorem test_witness_ClassificationIsTotal :
    unitOfSelect (onRx 0x7E6 0 0).req.sel = .cls ∧
    (clsAfter (onRx 0x7E6 0 0)).map (·.matchBits) = some 0 ∧
    (onRx 0x7E6 0 0).req.rx.len = 0 ∧ (onRx 0x600 2 0).req.rx.len.toNat < 3 ∧ (onRx 0x600 3 0).req.rx.len.toNat < 4 := by decide
theorem test_witness_SdoCodeResult :
    (1 : LenPort) ≠ 0 ∧ (15 : LenPort) ≠ 0 ∧ (0x60 : Byte) ≠ 0x40 ∧ (0x60 : Byte) ≠ 0x2F ∧
    (0x60 : Byte) ≠ 0x2B ∧ (0x60 : Byte) ≠ 0x23 := by decide
theorem test_witness_BytesBeyondLengthIgnored :
    unitOfSelect (onRx 1 2 0x5640).req.sel = .cls ∧ unitOfSelect (onRx 1 2 0x78345640).req.sel = .cls ∧
    SameFrame (onRx 1 2 0x5640).req.rx (onRx 1 2 0x78345640).req.rx := ⟨rfl, rfl, rfl, rfl, by decide⟩
theorem test_witness_LongLengthsActAsEight :
    unitOfSelect (onRx 1 9 0).req.sel = .cls ∧ 8 < (onRx 1 9 0).req.rx.len.toNat ∧
    8 < (onRx 1 15 0).req.rx.len.toNat := by decide
theorem test_witness_ExtractorsNotGated :
    unitOfSelect (onRx 0x181 4 0x78345640).req.sel = .cls ∧ unitOfSelect (onRx 0x600 4 0x78345640).req.sel = .cls ∧
    (onRx 0x181 4 0x78345640).req.rx.len = (onRx 0x600 4 0x78345640).req.rx.len ∧
    (onRx 0x181 4 0x78345640).req.rx.data = (onRx 0x600 4 0x78345640).req.rx.data := by decide
theorem test_witness_MultiNeverSet :
    unitOfSelect (onRx 0x7E4 0 0).req.sel = .cls := by decide
theorem test_witness_BuildThenExtract :
    (onEnc (sdo 4 0x67F 0xFFFF 0xFF)).req.sel = .encOp ∧ (onEnc (sdo 4 0x67F 0xFFFF 0xFF)).req.enc.op = 1 ∧
    1 ≤ (onEnc (sdo 1 0x600 0 0)).req.enc.svc.toNat ∧ (onEnc (sdo 4 0x67F 0xFFFF 0xFF)).req.enc.svc.toNat ≤ 4 := by decide
theorem test_witness_PackingDomain :
    (1 ≤ 1 ∧ 1 ≤ 8) ∧ (1 ≤ 8 ∧ 8 ≤ 8) ∧ 8 ≤ ([1, 2, 3, 4, 5, 6, 7, 8] : List Byte).length ∧
    ([1, 2, 3, 4, 5, 6, 7, 8] : List Byte).length = 8 := by decide
theorem test_witness_PackingDomainRefused :
    (0 = 0 ∧ 8 < 9) ∧ (1 ≤ 8 ∧ 8 ≤ 8) ∧ ([1, 2, 3, 4, 5, 6, 7] : List Byte).length < 8 := by decide
theorem test_witness_ConcatResult :
    (([1, 2, 3, 4] :: [[5, 6, 7, 8]] : List (List Byte)).map List.length).sum ≤ 8 := by decide
theorem test_witness_ConcatOverCapacity :
    8 < (([[1, 2, 3, 4], [5, 6, 7, 8, 9]] : List (List Byte)).map List.length).sum := by decide

/-- A settled state other than reset: Q2 on ENC and S1 on CLS, with their outputs from the spec. -/
def settledState : State :=
  { req := { sel := .rxId, enc := sdo 2 0x600 0x3456 0x78, rx := ⟨0x600, 4, 0x7834562F⟩,
             fn := { PackArgs.zero with packValue := 0x3456, packCount := 2 } }
    tx := ⟨1, 0, 0x600, 8, 0x7834562F⟩
    cls := ⟨0x1000, 4, 0, 0, 2, 0x3456, 0x78⟩
    fn := { packed := some [0x56, 0x34], unpacked := some 0, joined := some [] } }

/-- A state no run reaches: its outputs belong to other inputs. -/
def staleState : State :=
  { settledState with cls := ⟨0x2000, 5, 0, 1, 0, 0x6040, 0⟩, tx := ⟨0, 2, 0, 0, 0⟩ }

theorem test_witness_StepKeepsSettled :
    ∃ t, step staleState = .next t := ⟨_, rfl⟩
theorem test_witness_PresentingSettles :
    ∃ u, loopBack settledState = some u := ⟨_, rfl⟩
theorem test_witness_OutputsFollowInputs :
    Occurs (presentRx ⟨0x600, 4, 0x7834562F⟩ (onEnc (sdo 2 0x600 0x3456 0x78))) := .rx _ (.enc _ .reset)
theorem test_witness_DecodedAgreesWithOutputs :
    Settled settledState ∧ decode settledState.req = .ok (.mSdoreq 0x600) ∧
      unitOf (.mSdoreq 0x600) ≠ .packing := ⟨(by decide : settledState = reference settledState.req), rfl, by decide⟩
theorem test_witness_StepKeepsOutputsLegal :
    ∃ t, step staleState = .next t := ⟨_, rfl⟩
theorem test_witness_EncStepMeetsReference :
    (onEnc (nmt 4 0)).req.sel = .encOp := by decide
theorem test_witness_ClsStepMeetsReference :
    unitOfSelect Select.rxId = .cls ∧ unitOfSelect Select.sdoByte0 = .cls ∧
    unitOfSelect (.always .sdoIndex) = .cls := by decide
theorem test_witness_StepIsRepeatable :
    ∃ t, step (onEnc (sdo 1 0x601 0x1000 0)) = .next t := ⟨_, rfl⟩
theorem test_witness_HistoryHasNoEffect_units :
    unitOfSelect settledState.req.sel ≠ .packing ∧ unitOfSelect (onRx 0x600 4 0x7834562F).req.sel ≠ .packing ∧
    settledState.req.rx = (onRx 0x600 4 0x7834562F).req.rx ∧ settledState.req.enc = staleState.req.enc := by decide
theorem test_witness_HistoryHasNoEffect_packing :
    unitOfSelect (presentUse (.always .packLe) settledState).req.sel = .packing ∧
    (∃ t, step (presentUse (.always .packLe) settledState) = .next t) ∧
    step (presentPacking .packLe { PackArgs.zero with packCount := 9 } settledState) =
      .refused .byteCountOutsideDomain := ⟨by decide, ⟨_, rfl⟩, rfl⟩
theorem test_witness_HistoryHasNoEffect_state :
    settledState.req = staleState.req ∧ settledState.tx ≠ staleState.tx := ⟨rfl, by decide⟩
theorem test_witness_UnitsAreIndependent :
    unitOfSelect (.always .nodeId) = .cls ∧ Settled settledState := ⟨rfl, (by decide : settledState = reference settledState.req)⟩
theorem test_witness_InputsAreHeld :
    ∃ t, step (onRx 0x712 1 5) = .next t := ⟨_, rfl⟩
theorem test_witness_OperationFrames :
    (∃ t, exec (.nodeId 0x7FF) settledState = .next t) ∧ unitOf (.nodeId 0x7FF) ≠ .enc ∧
    writesMatch (.nodeId 0x7FF) = false ∧ writesSvc (.nodeId 0x7FF) = false := ⟨⟨_, rfl⟩, by decide, rfl, rfl⟩

end Sys2Proof.Tests
end

section
namespace Sys2Proof.Machine

/-- The uses of the internal functions are the three rows of 42_packing.md (R77, R78, R80), so no use
of ENC or of CLS is among them. -/
theorem unitOfSelect_eq_packing_iff (sel : Select) :
    unitOfSelect sel = .packing ↔
      sel = .always .packLe ∨ sel = .always .unpackLe ∨ sel = .always .concat := by
  cases sel with
  | encOp | rxId | sdoByte0 => simp [unitOfSelect]
  | always row => cases row <;> simp [unitOfSelect]

/-- Settles O53: a step answers or evaluates a packing function (`step_outcome`), and each of the three
refuses only outside its domain (decision D19, log entry 12). -/
theorem onlyPackingCanRefuse : Obligations.OnlyPackingCanRefuse := by
  unfold Obligations.OnlyPackingCanRefuse
  intro s
  rcases step_outcome s with hnext | ⟨hunit, -⟩
  · exact .inl ⟨_, hnext⟩
  rcases (unitOfSelect_eq_packing_iff s.req.sel).mp hunit with hsel | hsel | hsel
  · have hstep := step_packLe hsel
    by_cases hcount : countInDomain s.req.fn.packCount
    · exact .inl ⟨_, hstep.trans (if_pos hcount)⟩
    · exact .inr (.inl ⟨hsel, hcount, hstep.trans (if_neg hcount)⟩)
  · have hstep := step_unpackLe hsel
    by_cases hcount : countInDomain s.req.fn.unpackCount
    · rw [if_pos hcount] at hstep
      by_cases hlen : s.req.fn.unpackCount ≤ s.req.fn.unpackBytes.length
      · exact .inl ⟨_, hstep.trans (if_pos hlen)⟩
      · exact .inr (.inr (.inr (.inl
          ⟨hsel, hcount, Nat.lt_of_not_le hlen, hstep.trans (if_neg hlen)⟩)))
    · exact .inr (.inr (.inl ⟨hsel, hcount, hstep.trans (if_neg hcount)⟩))
  · have hstep := step_concat hsel
    by_cases hgroups : s.req.fn.groups = []
    · exact .inr (.inr (.inr (.inr ⟨hsel, hgroups, hstep.trans (if_pos hgroups)⟩)))
    · exact .inl ⟨_, hstep.trans (if_neg hgroups)⟩

end Sys2Proof.Machine
end

section
/-! The byte lanes of a data port (R7): what a little-endian value puts there, and what is read back. -/

namespace Sys2Proof.Machine

/-- Bit `j` of lane `i` (R7). -/
theorem byteLane_getElem (d : DataPort) (i : Nat) {j : Nat} (hj : j < 8) :
    (byteLane d i)[j] = d.getLsbD (8 * i + j) := by
  simp [byteLane]

/-- Two data ports with the same eight lanes are equal. -/
theorem dataPort_ext {d e : DataPort} (h : ∀ i < 8, byteLane d i = byteLane e i) : d = e := by
  apply BitVec.eq_of_getLsbD_eq
  intro k hk
  have hmod : k % 8 < 8 := Nat.mod_lt _ (by decide)
  have hbit : (byteLane d (k / 8))[k % 8] = (byteLane e (k / 8))[k % 8] := by rw [h _ (by omega)]
  rwa [byteLane_getElem, byteLane_getElem, Nat.div_add_mod] at hbit

/-- The lowest lane of a little-endian value is its first byte (R33). -/
theorem byteLane_leValue_cons_zero (b : Byte) (bs : List Byte) : byteLane (leValue (b :: bs)) 0 = b := by
  ext j hj
  have hj' : j < 64 := by omega
  simp [byteLane_getElem, leValue_cons, hj, hj']

/-- The other lanes hold the rest of the bytes, one position lower. -/
theorem byteLane_leValue_cons_succ (b : Byte) (bs : List Byte) {i : Nat} (hi : i + 1 < 8) :
    byteLane (leValue (b :: bs)) (i + 1) = byteLane (leValue bs) i := by
  ext j hj
  have hbit : 8 * (i + 1) + j - 8 = 8 * i + j := by omega
  have hb : b.getLsbD (8 * (i + 1) + j) = false := BitVec.getLsbD_of_ge _ _ (by omega)
  have hlt : 8 * (i + 1) + j < 64 := by omega
  have hge : ¬ 8 * (i + 1) + j < 8 := by omega
  rw [byteLane_getElem _ _ hj, byteLane_getElem _ _ hj, leValue_cons, BitVec.getLsbD_or,
    BitVec.getLsbD_shiftLeft, hbit]
  simp [hb, hlt, hge]

/-- Lane `i` of a little-endian value is byte `i`, zero beyond the last (R7, R71, R78). -/
theorem byteLane_leValue (l : List Byte) {i : Nat} (hi : i < 8) : byteLane (leValue l) i = l.getD i 0 := by
  induction l generalizing i with
  | nil => simp [byteLane]
  | cons b bs ih =>
    cases i with
    | zero => exact byteLane_leValue_cons_zero b bs
    | succ n => rw [byteLane_leValue_cons_succ b bs hi, ih (by omega), List.getD_cons_succ]

/-- Lane `i` of the lowest `n` bytes (R71). -/
theorem byteLane_lowBytes (d : DataPort) {n : Nat} (hn : n ≤ 8) (i : Nat) :
    byteLane (lowBytes d n) i = if i < n then byteLane d i else 0 := by
  ext j hj
  have hmask : 64 - 8 * n + (8 * i + j) < 64 ↔ i < n := by omega
  have hlane : (lowBytes d n).getLsbD (8 * i + j) = (d.getLsbD (8 * i + j) && decide (i < n)) := by
    rw [lowBytes, BitVec.getLsbD_and, BitVec.getLsbD_ushiftRight, BitVec.getLsbD_allOnes]
    simp only [hmask]
  by_cases hin : i < n <;> simp [byteLane_getElem, hlane, hin]

/-- A list of at most eight bytes is read back from the lanes it was put in. -/
theorem packBytes_leValue {l : List Byte} (hl : l.length ≤ 8) : packBytes (leValue l) l.length = l := by
  apply List.ext_getElem (packBytes_length _ _)
  intro i hi hil
  simp [packBytes, byteLane_leValue l (show i < 8 by omega), hil]

/-- The first bytes of a data port, put back in their lanes, are its low bytes (R68, R71). -/
theorem leValue_packBytes (d : DataPort) {n : Nat} (hn : n ≤ 8) : leValue (packBytes d n) = lowBytes d n := by
  apply dataPort_ext
  intro i hi
  rw [byteLane_leValue _ hi, byteLane_lowBytes d hn i]
  by_cases hin : i < n
  · rw [if_pos hin, List.getD_eq_getElem?_getD, packBytes_getElem? d hin, Option.getD_some]
  · rw [if_neg hin, List.getD_eq_default _ _ (by simpa using hin)]

/-- The eight bytes of `BUILD_SDO` (R69): wire byte, index in little-endian order, subindex, zeros. -/
def sdoBytes (wire : Byte) (index : BitVec 16) (sub : Byte) : List Byte :=
  [wire, index.extractLsb' 0 8, index.extractLsb' 8 8, sub, 0, 0, 0, 0]

/-- What `BUILD_SDO` concatenates are these eight bytes (R69). -/
theorem joinGroups_sdo (wire : Byte) (index : BitVec 16) (sub : Byte) :
    joinGroups [[wire], packBytes (index.setWidth 64) 2, [sub, 0, 0, 0, 0]] = sdoBytes wire index sub := by
  have hlane : ∀ i < 2, byteLane (index.setWidth 64) i = index.extractLsb' (8 * i) 8 := fun i hi =>
    BitVec.extractLsb'_setWidth_of_le (by omega)
  simp [joinGroups, packBytes, List.range_succ, hlane, sdoBytes]

/-- The lanes of the word of R57 are the eight bytes. -/
theorem byteLane_sdoWord (wire : Byte) (index : BitVec 16) (sub : Byte) {i : Nat} (hi : i < 8) :
    byteLane (sdoWord wire index sub) i = (sdoBytes wire index sub).getD i 0 := by
  show (0#32 ++ sub ++ index ++ wire : BitVec (32 + 8 + 16 + 8)).extractLsb' (8 * i) 8 = _
  interval_cases i <;>
    simp (disch := decide) only [BitVec.extractLsb'_append_eq_of_le, BitVec.extractLsb'_append_eq_of_add_le,
      BitVec.extractLsb'_eq_self, BitVec.extractLsb'_zero, Nat.reduceMul, Nat.reduceSub] <;> rfl

/-- The lanes of the word of R58 are the two bytes, then zeros. -/
theorem byteLane_nmtWord (wire node : Byte) {i : Nat} (hi : i < 8) :
    byteLane (nmtWord wire node) i = [wire, node].getD i 0 := by
  show (0#48 ++ node ++ wire : BitVec (48 + 8 + 8)).extractLsb' (8 * i) 8 = _
  interval_cases i <;>
    simp (disch := decide) only [BitVec.extractLsb'_append_eq_of_le, BitVec.extractLsb'_append_eq_of_add_le,
      BitVec.extractLsb'_eq_self, BitVec.extractLsb'_zero, Nat.reduceMul, Nat.reduceSub] <;> rfl

/-- The eight bytes of `BUILD_SDO` stand on the port as the word of R57. -/
theorem leValue_sdoBytes (wire : Byte) (index : BitVec 16) (sub : Byte) :
    leValue (sdoBytes wire index sub) = sdoWord wire index sub :=
  dataPort_ext fun _ hi => (byteLane_leValue _ hi).trans (byteLane_sdoWord wire index sub hi).symm

/-- The two bytes of `BUILD_NMT` stand on the port as the word of R58. -/
theorem leValue_nmtBytes (wire node : Byte) : leValue [wire, node] = nmtWord wire node :=
  dataPort_ext fun _ hi => (byteLane_leValue _ hi).trans (byteLane_nmtWord wire node hi).symm

end Sys2Proof.Machine
end

section
/-! ENC's outputs are those of the port table of R57, R58 and R61. -/

namespace Sys2Proof.Machine

/-- A selector is one of the four values of R49. -/
theorem encOp_cases (op : BitVec 2) : op = 0 ∨ op = 1 ∨ op = 2 ∨ op = 3 := by
  revert op; decide

/-- A length on a port is 1 to 8, or it is one `BUILD_GENERIC` refuses (R68). -/
theorem lenPort_illegal_iff (n : LenPort) : (n = 0 ∨ 8 < n) ↔ ¬ (1 ≤ n.toNat ∧ n.toNat ≤ 8) := by
  revert n; decide

/-- `BUILD_GENERIC` of a legal length (R68). -/
theorem buildGeneric_of_legal (id : CanId) {n : LenPort} (hn : 1 ≤ n.toNat ∧ n.toNat ≤ 8) (d : DataPort) :
    buildGeneric id n d = .frame { id := id, data := packBytes d n.toNat } :=
  if_neg fun h => (lenPort_illegal_iff n).mp h hn

/-- `BUILD_GENERIC` of any other length (R68). -/
theorem buildGeneric_of_illegal (id : CanId) {n : LenPort} (hn : ¬ (1 ≤ n.toNat ∧ n.toNat ≤ 8))
    (d : DataPort) : buildGeneric id n d = .invalid .badLen :=
  if_pos ((lenPort_illegal_iff n).mpr hn)

/-- `BUILD_SDO` of a tag that has a wire value (R69). -/
theorem buildSdo_of_wire {svc : BitVec 3} {wire : Byte} (h : svcWireOfTag svc = some wire) (id : CanId)
    (index : BitVec 16) (sub : Byte) :
    buildSdo svc id index sub = .frame { id := id, data := sdoBytes wire index sub } := by
  simp only [buildSdo, h, joinGroups_sdo]

/-- `BUILD_SDO` of a tag that has none (R69). -/
theorem buildSdo_of_no_wire {svc : BitVec 3} (h : svcWireOfTag svc = none) (id : CanId)
    (index : BitVec 16) (sub : Byte) : buildSdo svc id index sub = .invalid .badSvc := by
  simp only [buildSdo, h]

/-- `BUILD_NMT` of a tag that has a wire value (R70). -/
theorem buildNmt_of_wire {w : NmtWires} {cmd : BitVec 4} {wire : Byte} (h : nmtWire w cmd = some wire)
    (node : Byte) : buildNmt w cmd node = .frame { id := 0, data := [wire, node] } := by
  simp only [buildNmt, h]

/-- `BUILD_NMT` of a tag that has none (R70). -/
theorem buildNmt_of_no_wire {w : NmtWires} {cmd : BitVec 4} (h : nmtWire w cmd = none) (node : Byte) :
    buildNmt w cmd node = .invalid .badCmd := by
  simp only [buildNmt, h]

/-- The ports of a legal `BUILD_GENERIC` (R61, R71). -/
theorem resultPorts_buildGeneric_legal (id : CanId) {n : LenPort} (hn : 1 ≤ n.toNat ∧ n.toNat ≤ 8)
    (d : DataPort) : resultPorts (buildGeneric id n d) = encProduced id n (lowBytes d n.toNat) := by
  rw [buildGeneric_of_legal id hn]
  simp [framePorts, encProduced, RawFrame.len, leValue_packBytes d hn.2]

/-- The ports of a `BUILD_SDO` with a wire value (R57, R71). -/
theorem resultPorts_buildSdo_of_wire {svc : BitVec 3} {wire : Byte} (h : svcWireOfTag svc = some wire)
    (id : CanId) (index : BitVec 16) (sub : Byte) :
    resultPorts (buildSdo svc id index sub) = encProduced id 8 (sdoWord wire index sub) := by
  rw [buildSdo_of_wire h, ← leValue_sdoBytes]
  rfl

/-- The ports of a `BUILD_SDO` without one (R114). -/
theorem resultPorts_buildSdo_of_no_wire {svc : BitVec 3} (h : svcWireOfTag svc = none)
    (id : CanId) (index : BitVec 16) (sub : Byte) :
    resultPorts (buildSdo svc id index sub) = encRefused 3 := by
  rw [buildSdo_of_no_wire h]
  rfl

/-- The ports of a `BUILD_NMT` with a wire value (R58, R71). -/
theorem resultPorts_buildNmt_of_wire {w : NmtWires} {cmd : BitVec 4} {wire : Byte}
    (h : nmtWire w cmd = some wire) (node : Byte) :
    resultPorts (buildNmt w cmd node) = encProduced 0 2 (nmtWord wire node) := by
  rw [buildNmt_of_wire h, ← leValue_nmtBytes]
  rfl

/-- The ports of a `BUILD_NMT` without one (R114). -/
theorem resultPorts_buildNmt_of_no_wire {w : NmtWires} {cmd : BitVec 4} (h : nmtWire w cmd = none)
    (node : Byte) : resultPorts (buildNmt w cmd node) = encRefused 2 := by
  rw [buildNmt_of_no_wire h]
  rfl

/-- The row of `BUILD_GENERIC` in the port table (R61). -/
theorem encReference_generic {q : EncReq} (h : q.op = 0) :
    resultPorts (buildGeneric q.id q.len q.data) = encReference q := by
  by_cases hn : 1 ≤ q.len.toNat ∧ q.len.toNat ≤ 8
  · rw [resultPorts_buildGeneric_legal q.id hn]
    simp [encReference, h, hn]
  · rw [buildGeneric_of_illegal q.id hn]
    simp only [encReference, h, if_neg hn]
    rfl

/-- A tag outside 1 to 4 has no wire value (R50, R69). -/
theorem svcWireOfTag_eq_none {tag : BitVec 3} (h : ¬ (1 ≤ tag.toNat ∧ tag.toNat ≤ 4)) :
    svcWireOfTag tag = none := by
  rw [← Option.not_isSome_iff_eq_none, svcWireOfTag_isSome]
  simpa using h

/-- A tag above 4 has no wire value (R52, R53). -/
theorem nmtWire_eq_none (w : NmtWires) {tag : BitVec 4} (h : 4 < tag.toNat) : nmtWire w tag = none := by
  rw [← Option.not_isSome_iff_eq_none, nmtWire_isSome]
  simpa using h

/-- The wire value of a tag whose number is known (R50, R51). -/
theorem svcWireOfTag_of_toNat {tag : BitVec 3} {n : Nat} {wire : Byte} (ht : tag.toNat = n)
    (hw : svcWireOfTag (BitVec.ofNat 3 n) = some wire) : svcWireOfTag tag = some wire := by
  rwa [← ht, BitVec.ofNat_toNat, BitVec.setWidth_eq] at hw

/-- The wire value of a command whose number is known (R52, R53). -/
theorem nmtWire_of_toNat {w : NmtWires} {tag : BitVec 4} {n : Nat} {wire : Byte} (ht : tag.toNat = n)
    (hw : nmtWire w (BitVec.ofNat 4 n) = some wire) : nmtWire w tag = some wire := by
  rwa [← ht, BitVec.ofNat_toNat, BitVec.setWidth_eq] at hw

/-- The row of `BUILD_SDO` in the port table (R57, R61): the four tags with a wire value, and the rest. -/
theorem encReference_sdo {q : EncReq} (h : q.op = 1) :
    resultPorts (buildSdo q.svc q.id q.index q.sub) = encReference q := by
  simp only [encReference, show q.op.toNat = 1 from congrArg BitVec.toNat h]
  split
  case h_1 ht | h_2 ht | h_3 ht | h_4 ht =>
    exact resultPorts_buildSdo_of_wire (svcWireOfTag_of_toNat ht rfl) _ _ _
  next h1 h2 h3 h4 =>
    have hne : q.svc.toNat ≠ 1 ∧ q.svc.toNat ≠ 2 ∧ q.svc.toNat ≠ 3 ∧ q.svc.toNat ≠ 4 := ⟨h1, h2, h3, h4⟩
    exact resultPorts_buildSdo_of_no_wire (svcWireOfTag_eq_none (by omega)) _ _ _

/-- The row of `BUILD_NMT` in the port table (R58, R61): the five commands, and the rest. -/
theorem encReference_nmt {q : EncReq} (h : q.op = 2) :
    resultPorts (buildNmt Config.nmtWires q.cmd q.node) = encReference q := by
  simp only [encReference, show q.op.toNat = 2 from congrArg BitVec.toNat h]
  split
  case h_1 ht | h_2 ht | h_3 ht | h_4 ht | h_5 ht =>
    exact resultPorts_buildNmt_of_wire (nmtWire_of_toNat ht rfl) _
  next h0 h1 h2 h3 h4 =>
    have hne : q.cmd.toNat ≠ 0 ∧ q.cmd.toNat ≠ 1 ∧ q.cmd.toNat ≠ 2 ∧ q.cmd.toNat ≠ 3 ∧ q.cmd.toNat ≠ 4 :=
      ⟨h0, h1, h2, h3, h4⟩
    exact resultPorts_buildNmt_of_no_wire (nmtWire_eq_none _ (by omega)) _

/-- What ENC drives is what the port table gives, for every request (R57, R58, R61, R67). -/
theorem encOutputs_eq_encReference (q : EncReq) : encOutputs q = encReference q := by
  unfold encOutputs encResult
  rcases encOp_cases q.op with h | h | h | h
  · rw [if_pos h, encReference_generic h]
  · rw [if_neg (by rw [h]; decide), if_pos h, encReference_sdo h]
  · rw [if_neg (by rw [h]; decide), if_neg (by rw [h]; decide), if_pos h, encReference_nmt h]
  · simp only [encReference, h]
    rfl

end Sys2Proof.Machine
end

section
/-! CLS's outputs are those of the port tables of R39, R102, R105, R107 and R108. -/

namespace Sys2Proof.Machine

/-- The mask 0xF80 leaves the function code `rx_id[10:7]` and nothing else (R85 to R97). -/
theorem setWidth_and_F80 (id : CanId) :
    id.setWidth 12 &&& (0xF80 : BitVec 12) = (id.extractLsb' 7 4).setWidth 12 <<< 7 := by
  ext i hi
  interval_cases i <;> simp

/-- The function code as a number: the identifiers come in sixteen blocks of 128. -/
theorem functionCode_toNat (id : CanId) : (id.extractLsb' 7 4).toNat = id.toNat / 128 := by
  have hid := id.isLt
  rw [BitVec.extractLsb'_toNat, Nat.shiftRight_eq_div_pow]
  exact Nat.mod_eq_of_lt (by omega)

/-- A comparison under the mask 0xF80 gives the same on all identifiers of a block. -/
theorem idMatches_F80_congr {id id' : CanId} (h : id.toNat / 128 = id'.toNat / 128) (value : BitVec 12) :
    idMatches 0xF80 value id = idMatches 0xF80 value id' := by
  have hcode : id.extractLsb' 7 4 = id'.extractLsb' 7 4 :=
    BitVec.eq_of_toNat_eq (by rw [functionCode_toNat, functionCode_toNat, h])
  rw [idMatches, idMatches, setWidth_and_F80, setWidth_and_F80, hcode]

/-- A comparison under the mask 0xFFF fails on every identifier but the value itself. -/
theorem idMatches_FFF_eq_false {id : CanId} {value : BitVec 12} (h : id.toNat ≠ value.toNat) :
    idMatches 0xFFF value id = false := by
  have hmask : id.setWidth 12 &&& 0xFFF = id.setWidth 12 := BitVec.and_allOnes
  rw [idMatches, hmask, beq_eq_false_iff_ne]
  rintro rfl
  exact h (BitVec.toNat_setWidth_of_le (by decide)).symm

/-- The three identifiers with a predicate of their own: `M_NMT0` (R84) and `M_LSS` (R87). -/
def HasOwnPredicate (n : Nat) : Prop := n = 0x000 ∨ n = 0x7E4 ∨ n = 0x7E5

/-- On all other identifiers of a block the fourteen predicates are the same. -/
theorem predicates_congr {id id' : CanId} (h : id.toNat / 128 = id'.toNat / 128)
    (hid : ¬ HasOwnPredicate id.toNat) (hid' : ¬ HasOwnPredicate id'.toNat) :
    predicates id = predicates id' := by
  have hown : ∀ {id : CanId}, ¬ HasOwnPredicate id.toNat → idMatches 0xFFF 0x000 id = false ∧
      idMatches 0xFFF 0x7E4 id = false ∧ idMatches 0xFFF 0x7E5 id = false := fun hn =>
    ⟨idMatches_FFF_eq_false fun h => hn (.inl h), idMatches_FFF_eq_false fun h => hn (.inr (.inl h)),
      idMatches_FFF_eq_false fun h => hn (.inr (.inr h))⟩
  simp only [predicates, predNmt0, predNmthb, predEmcy, predLss, predTpdo1, predTpdo2, predTpdo3,
    predTpdo4, predRpdo1, predRpdo2, predRpdo3, predRpdo4, predSdoreq, predSdoresp, hown hid, hown hid',
    idMatches_F80_congr h]

/-- On them the map of R39 is the same too: every bound of its ranges is the end of a block, but for
those of the three. -/
theorem identifierMap_congr {m n : Nat} (h : m / 128 = n / 128) (hm : ¬ HasOwnPredicate m)
    (hn : ¬ HasOwnPredicate n) : identifierMap m = identifierMap n := by
  simp only [HasOwnPredicate, not_or] at hm hn
  have htail : ∀ {k : Nat}, ¬ (k = 0x000) ∧ ¬ (k = 0x7E4) ∧ ¬ (k = 0x7E5) →
      (if k ≤ 0x7E3 then ((0x0000, 0) : BitVec 14 × BitVec 4)
        else if k ≤ 0x7E5 then (0x0008, 3) else (0x0000, 0)) = (0x0000, 0) := by
    intro k hk
    split
    · rfl
    · exact if_neg (by omega)
  unfold identifierMap
  rw [htail hm, htail hn]
  iterate 16 refine if_congr (by omega) rfl ?_
  rfl

/-- `CLASSIFY` gives an identifier what the map of R39 gives it. -/
abbrev FollowsIdentifierMap (id : CanId) : Prop :=
  matchVector id = (identifierMap id.toNat).1 ∧ categoryOf (matchVector id) = (identifierMap id.toNat).2 ∧
    multiOf (matchVector id) = 0

/-- An identifier without a predicate of its own, in the block of function code `k`. -/
def blockId (k : Nat) : CanId := BitVec.ofNat 11 (128 * k + 1)

/-- It is the second identifier of its block. -/
theorem blockId_toNat {k : Nat} (hk : k < 16) : (blockId k).toNat = 128 * k + 1 :=
  Nat.mod_eq_of_lt (by omega)

/-- None of the three stands there. -/
theorem blockId_not_hasOwnPredicate {k : Nat} (hk : k < 16) : ¬ HasOwnPredicate (blockId k).toNat := by
  rw [blockId_toNat hk, HasOwnPredicate]
  omega

/-- R39 for every identifier: the three with a predicate of their own, and one for each block. -/
theorem followsIdentifierMap (id : CanId) : FollowsIdentifierMap id := by
  by_cases hown : HasOwnPredicate id.toNat
  · rcases hown with h | h | h
    · rw [show id = 0x000 from BitVec.eq_of_toNat_eq h]; decide
    · rw [show id = 0x7E4 from BitVec.eq_of_toNat_eq h]; decide
    · rw [show id = 0x7E5 from BitVec.eq_of_toNat_eq h]; decide
  · have hblocks : ∀ k < 16, FollowsIdentifierMap (blockId k) := by decide
    have hk : id.toNat / 128 < 16 := by have := id.isLt; omega
    have hsame : id.toNat / 128 = (blockId (id.toNat / 128)).toNat / 128 := by
      rw [blockId_toNat hk]; omega
    have hrep := blockId_not_hasOwnPredicate hk
    have hblock := hblocks _ hk
    rwa [FollowsIdentifierMap, matchVector, ← predicates_congr hsame hown hrep,
      ← identifierMap_congr hsame hown hrep] at hblock

/-- `NODE_ID` is `rx_id[6:0]` (R102). -/
theorem nodeIdOf_eq (id : CanId) : nodeIdOf id = id.extractLsb' 0 7 := by
  ext i hi
  interval_cases i <;> simp [nodeIdOf]

/-- The tag `sdo_svc` is the one the table of R50 and R105 gives. -/
theorem svcTag_sdoCode (len : LenPort) (b0 : Byte) :
    svcTag (sdoCode len b0) = svcTagReference len.toNat b0.toNat := by
  simp only [sdoCode, svcTagReference, ← BitVec.toNat_inj, apply_ite svcTag]
  rfl

/-- Two neighbouring lanes are sixteen bits of the port (R7). -/
theorem byteLane_append_byteLane (d : DataPort) (i : Nat) :
    byteLane d (i + 1) ++ byteLane d i = d.extractLsb' (8 * i) 16 :=
  BitVec.extractLsb'_append_extractLsb'_eq_extractLsb' (Nat.mul_succ 8 i)

/-- Two bytes read little-endian are the second above the first (R78, R107). -/
theorem unpackValue_two (b1 b2 : Byte) : (unpackValue [b1, b2] 2).setWidth 16 = b2 ++ b1 := by
  show (leValue [b1, b2]).setWidth 16 = _
  rw [BitVec.setWidth_eq_extractLsb' (by decide), ← byteLane_append_byteLane _ 0,
    byteLane_leValue _ (by decide), byteLane_leValue _ (by decide)]
  rfl

/-- `SDO_INDEX` on the port: `rx_data[23:8]`, zero below three bytes (R107). -/
theorem sdoIndex_lanes (len : LenPort) (d : DataPort) :
    sdoIndex len (byteLane d 1) (byteLane d 2) = if len.toNat < 3 then 0 else d.extractLsb' 8 16 := by
  rw [sdoIndex, unpackValue_two, byteLane_append_byteLane d 1]
  rfl

/-- `SDO_SUBINDEX` on the port: `rx_data[31:24]`, zero below four bytes (R108). -/
theorem sdoSubindex_lane (len : LenPort) (d : DataPort) :
    sdoSubindex len (byteLane d 3) = if len.toNat < 4 then 0 else d.extractLsb' 24 8 := rfl

/-- What CLS drives is what the port tables give, for every frame (R39, R101, R102, R105, R107,
R108). -/
theorem clsOutputs_eq_clsReference (f : RxPorts) : clsOutputs f = clsReference f := by
  obtain ⟨hmatch, hcat, hmulti⟩ := followsIdentifierMap f.id
  unfold clsOutputs clsReference
  rw [hcat, hmulti, hmatch, nodeIdOf_eq, svcTag_sdoCode, sdoIndex_lanes, sdoSubindex_lane]
  rfl

end Sys2Proof.Machine
end

section
/-! The block as the inputs present make it is the block of the port tables, and so is what a step, a
presentation and a run leave. -/

namespace Sys2Proof.Machine

/-- The packing results are those of the tables: the domains of D19 and the capacity of R81. -/
theorem packOutputs_eq_packReference (a : PackArgs) : packOutputs a = packReference a := by
  have hunpacked : (packOutputs a).unpacked = (packReference a).unpacked := if_congr and_assoc rfl rfl
  have hjoined : (packOutputs a).joined = (packReference a).joined := by
    by_cases hg : a.groups = [] <;>
      simp [packOutputs, packReference, joinIntoBuffer, joinGroups, maxLen, hg]
  exact (PackResults.mk.injEq ..).mpr ⟨rfl, hunpacked, hjoined⟩

/-- Settles O56: unit by unit. -/
theorem settledIsReference : Obligations.SettledIsReference := by
  unfold Obligations.SettledIsReference
  intro r
  rw [settle, encOutputs_eq_encReference, clsOutputs_eq_clsReference, packOutputs_eq_packReference]
  rfl

/-- Settled means: as `settle` makes it of the inputs present. -/
theorem settled_iff {s : State} : Settled s ↔ s = settle s.req := by
  rw [Settled, settledIsReference]

/-- The block as any inputs make it is settled. -/
theorem settled_settle (r : Request) : Settled (settle r) := settled_iff.mpr rfl

/-- A next state is the block as the inputs present make it (R13). -/
theorem eq_settle_of_step {s t : State} (h : step s = .next t) : t = settle s.req := by
  rcases step_outcome s with hnext | ⟨-, e, he⟩
  · rw [hnext] at h
    cases h
    rfl
  · rw [he] at h
    cases h

/-- Settles O43: whatever a step answers is `settle` of the inputs present, which are those of the
tables. -/
theorem stepKeepsSettled : Obligations.StepKeepsSettled := by
  unfold Obligations.StepKeepsSettled
  intro s t h
  rw [eq_settle_of_step h]
  exact settled_settle _

/-- Settles O46: an evaluation of ENC is `settle` (`step_enc`), and that is the tables'. -/
theorem encStepMeetsReference : Obligations.EncStepMeetsReference := by
  unfold Obligations.EncStepMeetsReference
  intro s h
  rw [step_enc h, settledIsReference]

/-- Settles O47: so is one of CLS, through whichever row (`step_cls`). -/
theorem clsStepMeetsReference : Obligations.ClsStepMeetsReference := by
  unfold Obligations.ClsStepMeetsReference
  intro s h
  rw [step_cls h, settledIsReference]

/-- Settles O48: a step reads the inputs present alone, and leaves them. -/
theorem stepIsRepeatable : Obligations.StepIsRepeatable := by
  unfold Obligations.StepIsRepeatable
  intro s t h
  have hreq : t.req = s.req := by rw [eq_settle_of_step h, settle_req]
  rwa [step, hreq, ← step]

/-- Settles O6: a settled state is `settle` of its own inputs. -/
theorem stepRunsDecoded : Obligations.StepRunsDecoded := by
  unfold Obligations.StepRunsDecoded
  intro s i hd _
  have hstep := step_of_decode hd
  exact ⟨hstep, fun hs => by rwa [← settled_iff.mp hs] at hstep⟩

/-- An operation of ENC or of CLS always answers a next state (R28, R104). -/
theorem exec_answers {i : Instr} (h : unitOf i ≠ .packing) (s : State) : ∃ t, exec i s = .next t := by
  cases hu : unitOf i with
  | enc => exact (exec_enc hu s).elim fun _ he => ⟨_, he⟩
  | cls => exact (exec_cls hu s).elim fun _ he => ⟨_, he⟩
  | packing => exact absurd hu h

/-- Settles O57: on a settled state exec of the decoded operation is a step, which answers that state, or
evaluates a packing function. -/
theorem decodedAgreesWithOutputs : Obligations.DecodedAgreesWithOutputs := by
  unfold Obligations.DecodedAgreesWithOutputs
  intro s i hs hd
  have hsettle := settled_iff.mp hs
  have hstep : step s = exec i s := by rw [step_of_decode hd, ← hsettle]
  have hsame : ∀ t, exec i s = .next t → t = s := fun t ht => by
    rw [eq_settle_of_step (hstep.trans ht), ← hsettle]
  refine ⟨fun hunit => ?_, hsame⟩
  obtain ⟨t, ht⟩ := exec_answers hunit s
  rw [ht, hsame t ht]

/-- Wiring `tx_*` to `rx_*` is a presentation of a frame (R130). -/
theorem settled_of_loopBack {s t : State} (h : loopBack s = some t) : Settled t := by
  unfold loopBack at h
  split at h
  · cases h
    exact settled_settle _
  · cases h

/-- Settles O54: every presentation is `settle` of the new inputs. -/
theorem presentingSettles : Obligations.PresentingSettles := by
  unfold Obligations.PresentingSettles
  intro s
  exact ⟨fun _ => ⟨settled_settle _, rfl⟩, fun _ => ⟨settled_settle _, rfl⟩,
    fun _ => ⟨settled_settle _, rfl⟩, fun _ _ => ⟨settled_settle _, rfl⟩,
    fun _ _ => settled_settle _, fun _ hu => settled_of_loopBack hu⟩

/-- Settles O55, by induction on the run. -/
theorem outputsFollowInputs : Obligations.OutputsFollowInputs := by
  unfold Obligations.OutputsFollowInputs
  intro s h
  induction h with
  | reset => exact settled_settle Request.zero
  | step _ hs _ => exact stepKeepsSettled _ _ hs
  | enc | rx | use | packing | word => exact settled_settle _
  | wired _ hs _ => exact settled_of_loopBack hs

/-- Settles O50: both evaluations are `settle` of inputs that differ in the use alone, which no output
reads. -/
theorem unitsAreIndependent : Obligations.UnitsAreIndependent := by
  unfold Obligations.UnitsAreIndependent
  intro s c hc
  refine ⟨_, _, _, _, step_enc rfl, step_cls hc, step_cls hc, step_enc rfl,
    rfl, rfl, rfl, rfl, rfl, fun hs => ?_⟩
  have hsettle := settled_iff.mp hs
  have htx := congrArg State.tx hsettle
  have hcls := congrArg State.cls hsettle
  have hfn := congrArg State.fn hsettle
  exact ⟨hcls.symm, htx.symm, hfn.symm, hfn.symm⟩

end Sys2Proof.Machine
end

section
/-! What one operation can drive, and nothing else (R14, R25, R37). -/

namespace Sys2Proof.Machine

/-- From `s`, operation `i` may answer `t`: one constructor per output that some operations drive. -/
inductive Drives (s : State) : Instr → State → Prop where
  | build {i : Instr} (hunit : unitOf i = .enc) (r : BuildResult) : Drives s i (driveBuild r s)
  | matchBit {i : Instr} (hunit : unitOf i = .cls) (hmatch : writesMatch i = true) (k : Nat) (b : Bool) :
      Drives s i (driveMatch k b s)
  | category (id : CanId) (m : BitVec 14) : Drives s (.classify id) (driveCategory m s)
  | node (id : CanId) (n : BitVec 7) : Drives s (.nodeId id) (driveNode n s)
  | svc {i : Instr} (hunit : unitOf i = .cls) (hsvc : writesSvc i = true) (c : ServiceCode) :
      Drives s i (driveSvc c s)
  | index (len : LenPort) (b1 b2 : Byte) (v : BitVec 16) : Drives s (.sdoIndex len b1 b2) (driveIndex v s)
  | sub (len : LenPort) (b3 v : Byte) : Drives s (.sdoSubindex len b3) (driveSub v s)
  | packed (v : BitVec 64) (n : Nat) (l : List Byte) : Drives s (.packLe v n) (putPacked l s)
  | unpacked (l : List Byte) (n : Nat) (v : BitVec 64) : Drives s (.unpackLe l n) (putUnpacked v s)
  | joined (gs : List (List Byte)) (r : Option (List Byte)) : Drives s (.concat gs) (putJoined r s)

/-- A next state of an operation is one it drives. -/
theorem drives_of_exec {i : Instr} {s t : State} (h : exec i s = .next t) : Drives s i t := by
  cases i with
  | buildGeneric | buildSdo | buildNmt => cases h; exact .build rfl _
  | mNmt0 | mNmthb | mEmcy | mLss7E4 | mLss7E5 | mTpdo1 | mTpdo2 | mTpdo3 | mTpdo4
  | mRpdo1 | mRpdo2 | mRpdo3 | mRpdo4 | mSdoreq | mSdoresp => cases h; exact .matchBit rfl rfl _ _
  | svcRead | svcWrite1 | svcWrite2 | svcWrite4 | sdoCode => cases h; exact .svc rfl rfl _
  | classify => cases h; exact .category _ _
  | nodeId => cases h; exact .node _ _
  | sdoIndex => cases h; exact .index _ _ _ _
  | sdoSubindex => cases h; exact .sub _ _ _
  | packLe v n =>
    by_cases hn : countInDomain n
    · rw [exec_packLe hn] at h; cases h; exact .packed _ _ _
    · cases (if_neg hn).symm.trans h
  | unpackLe l n =>
    by_cases hn : countInDomain n
    · by_cases hl : n ≤ l.length
      · rw [exec_unpackLe hn hl] at h; cases h; exact .unpacked _ _ _
      · cases ((if_pos hn).trans (if_neg hl)).symm.trans h
    · cases (if_neg hn).symm.trans h
  | concat gs =>
    by_cases hg : gs = []
    · cases (if_pos hg).symm.trans h
    · rw [exec_concat hg] at h; cases h; exact .joined _ _

/-- Settles O52: case by case of what an operation drives. -/
theorem operationFrames : Obligations.OperationFrames := by
  unfold Obligations.OperationFrames
  intro i s t h
  cases drives_of_exec h with
  | build hunit => simp [hunit]
  | matchBit hunit hmatch => simp [hunit, hmatch]
  | svc hunit hsvc => simp [hunit, hsvc]
  | category | node | index | sub | packed | unpacked | joined => simp [unitOf, writesMatch, writesSvc]

end Sys2Proof.Machine
end

section
/-! The bytes of a frame: those beyond its length are no part of it (R19), and those below are the ones
asked for (R26). -/

namespace Sys2Proof.Machine

/-- `SDO_CODE` reads byte 0 only of a frame that has one (R38, R105). -/
theorem sdoCode_congr {len : LenPort} {b0 b0' : Byte} (h : 0 < len.toNat → b0 = b0') :
    sdoCode len b0 = sdoCode len b0' := by
  by_cases hlen : len = 0
  · rw [sdoCode, sdoCode, if_pos hlen, if_pos hlen]
  · rw [h (Nat.pos_of_ne_zero fun h0 => hlen (BitVec.eq_of_toNat_eq h0))]

/-- `SDO_INDEX` reads bytes 1 and 2 only of a frame that has them (R38, R107). -/
theorem sdoIndex_congr {len : LenPort} {b1 b1' b2 b2' : Byte} (h : 3 ≤ len.toNat → b1 = b1' ∧ b2 = b2') :
    sdoIndex len b1 b2 = sdoIndex len b1' b2' := by
  by_cases hlen : len < 3
  · rw [sdoIndex, sdoIndex, if_pos hlen, if_pos hlen]
  · obtain ⟨rfl, rfl⟩ := h (Nat.le_of_not_lt hlen)
    rfl

/-- `SDO_SUBINDEX` reads byte 3 only of a frame that has it (R38, R108). -/
theorem sdoSubindex_congr {len : LenPort} {b3 b3' : Byte} (h : 4 ≤ len.toNat → b3 = b3') :
    sdoSubindex len b3 = sdoSubindex len b3' := by
  by_cases hlen : len < 4
  · rw [sdoSubindex, sdoSubindex, if_pos hlen, if_pos hlen]
  · rw [h (Nat.le_of_not_lt hlen)]

/-- The same frame gives the same outputs of CLS (R19, R38). -/
theorem clsOutputs_congr {f g : RxPorts} (h : SameFrame f g) : clsOutputs f = clsOutputs g := by
  obtain ⟨hid, hlen, hbytes⟩ := h
  have hsvc : sdoCode f.len (byteLane f.data 0) = sdoCode f.len (byteLane g.data 0) :=
    sdoCode_congr (hbytes 0 (by decide))
  have hindex : sdoIndex f.len (byteLane f.data 1) (byteLane f.data 2) =
      sdoIndex f.len (byteLane g.data 1) (byteLane g.data 2) :=
    sdoIndex_congr fun h3 => ⟨hbytes 1 (by decide) (by omega), hbytes 2 (by decide) h3⟩
  have hsub : sdoSubindex f.len (byteLane f.data 3) = sdoSubindex f.len (byteLane g.data 3) :=
    sdoSubindex_congr (hbytes 3 (by decide))
  rw [clsOutputs, hsvc, hindex, hsub, hid, hlen]
  rfl

/-- Settles O32: each step leaves CLS's outputs for its frame, and these are the same. -/
theorem bytesBeyondLengthIgnored : Obligations.BytesBeyondLengthIgnored := by
  unfold Obligations.BytesBeyondLengthIgnored
  intro s s' hs hs' hframe
  exact ⟨_, _, step_cls hs, step_cls hs', clsOutputs_congr hframe⟩

/-- A frame of at most eight bytes is read back from the ports it is driven on (R19, R26, R71). -/
theorem builtFrame_framePorts {f : RawFrame} (hf : f.data.length ≤ 8) :
    builtFrame (framePorts f) = some f := by
  have hlen : (BitVec.ofNat 4 f.data.length).toNat = f.data.length := Nat.mod_eq_of_lt (by omega)
  show some (RawFrame.mk f.id (packBytes (leValue f.data) (BitVec.ofNat 4 f.data.length).toNat)) = some f
  rw [hlen, packBytes_leValue hf]

/-- The four tags with a wire value (R50, R51). -/
theorem svcWireOfTag_of_mem {svc : BitVec 3} {wire : Byte}
    (h : (svc, wire) ∈ [((1 : BitVec 3), (0x40 : Byte)), (2, 0x2F), (3, 0x2B), (4, 0x23)]) :
    svcWireOfTag svc = some wire := by
  simp only [List.mem_cons, Prod.mk.injEq, List.not_mem_nil, or_false] at h
  rcases h with ⟨rfl, rfl⟩ | ⟨rfl, rfl⟩ | ⟨rfl, rfl⟩ | ⟨rfl, rfl⟩ <;> rfl

/-- The five commands and their wire values (R52, R53). -/
theorem nmtWire_of_mem {w : NmtWires} {cmd : BitVec 4} {wire : Byte}
    (h : (cmd, wire) ∈ [((0 : BitVec 4), w.operational), (1, w.stopped), (2, w.preoperational),
      (3, (0x81 : Byte)), (4, w.resetComm)]) :
    nmtWire w cmd = some wire := by
  simp only [List.mem_cons, Prod.mk.injEq, List.not_mem_nil, or_false] at h
  rcases h with ⟨rfl, rfl⟩ | ⟨rfl, rfl⟩ | ⟨rfl, rfl⟩ | ⟨rfl, rfl⟩ | ⟨rfl, rfl⟩ <;> rfl

/-- Settles O15: each builder makes the frame asked for, and a frame is read back from its ports. -/
theorem builtFrameIsTheRequested : Obligations.BuiltFrameIsTheRequested := by
  unfold Obligations.BuiltFrameIsTheRequested
  refine ⟨fun id len d s hlen => ⟨_, rfl, ?_⟩, fun svc wire id index sub s hmem => ⟨_, rfl, ?_⟩,
    fun cmd wire node s hmem => ⟨_, rfl, ?_⟩⟩
  · rw [driveBuild_tx, buildGeneric_of_legal id hlen]
    exact builtFrame_framePorts ((packBytes_length d _).trans_le hlen.2)
  · rw [driveBuild_tx, buildSdo_of_wire (svcWireOfTag_of_mem hmem)]
    exact builtFrame_framePorts (Nat.le_refl 8)
  · rw [driveBuild_tx, buildNmt_of_wire (nmtWire_of_mem hmem)]
    exact builtFrame_framePorts (show 2 ≤ 8 by decide)

end Sys2Proof.Machine
end

section
/-! The block has no memory (R37, R39, R42): the map of identifiers, and what a step reads and leaves. -/

namespace Sys2Proof.Machine

/-- Settles O24: the three outputs `CLASSIFY` drives are those of the map (`followsIdentifierMap`). -/
theorem identifierMapHolds : Obligations.IdentifierMapHolds := by
  unfold Obligations.IdentifierMapHolds
  intro id s
  obtain ⟨hmatch, hcat, hmulti⟩ := followsIdentifierMap id
  show Host.Outcome.next (driveCategory (matchVector id) s) = _
  rw [driveCategory, hcat, hmulti, hmatch]

/-- Settles O51: a next state is `settle` of the inputs present, which keeps them. -/
theorem inputsAreHeld : Obligations.InputsAreHeld := by
  unfold Obligations.InputsAreHeld
  intro s t h
  rw [eq_settle_of_step h, settle_req]

/-- An evaluation of ENC or of CLS answers the block as the inputs present make it. -/
theorem step_of_not_packing {s : State} (h : unitOfSelect s.req.sel ≠ .packing) :
    step s = .next (settle s.req) :=
  (step_outcome s).resolve_right fun ⟨hpacking, _⟩ => h hpacking

/-- Two uses of one packing function on equal operands both answer, or both refuse for the same reason:
the domain is a condition on the operands alone (R77, R78, R80, decision D19). -/
theorem step_packing_congr {s s' : State} (hunit : unitOfSelect s.req.sel = .packing)
    (hsel : s.req.sel = s'.req.sel) (hfn : s.req.fn = s'.req.fn) :
    (step s = .next (settle s.req) ∧ step s' = .next (settle s'.req)) ∨
      ∃ e, step s = .refused e ∧ step s' = .refused e := by
  rcases (unitOfSelect_eq_packing_iff _).mp hunit with h | h | h
  · rw [step_packLe h, step_packLe (hsel ▸ h), ← hfn]
    by_cases hcount : countInDomain s.req.fn.packCount
    · exact .inl ⟨if_pos hcount, if_pos hcount⟩
    · exact .inr ⟨_, if_neg hcount, if_neg hcount⟩
  · rw [step_unpackLe h, step_unpackLe (hsel ▸ h), ← hfn]
    by_cases hcount : countInDomain s.req.fn.unpackCount
    · rw [if_pos hcount, if_pos hcount]
      by_cases hlen : s.req.fn.unpackCount ≤ s.req.fn.unpackBytes.length
      · exact .inl ⟨if_pos hlen, if_pos hlen⟩
      · exact .inr ⟨_, if_neg hlen, if_neg hlen⟩
    · exact .inr ⟨_, if_neg hcount, if_neg hcount⟩
  · rw [step_concat h, step_concat (hsel ▸ h), ← hfn]
    by_cases hgroups : s.req.fn.groups = []
    · exact .inr ⟨_, if_pos hgroups, if_pos hgroups⟩
    · exact .inl ⟨if_neg hgroups, if_neg hgroups⟩

/-- Settles O49: an answer is `settle` of the inputs present, which computes each unit's outputs from
that unit's inputs; a refusal is decided by the operands (`step_packing_congr`). -/
theorem historyHasNoEffect : Obligations.HistoryHasNoEffect := by
  unfold Obligations.HistoryHasNoEffect
  refine ⟨fun s s' h h' => ?units, fun s s' hunit hsel hfn => ?packing, fun s s' hreq => ?request⟩
  case units =>
    exact ⟨_, _, step_of_not_packing h, step_of_not_packing h', congrArg encOutputs, congrArg clsOutputs⟩
  case packing =>
    rcases step_packing_congr hunit hsel hfn with ⟨hs, hs'⟩ | ⟨e, hs, hs'⟩
    · refine ⟨fun t ht => ⟨_, hs', ?_⟩, fun e he => ?_⟩
      · rw [eq_settle_of_step ht]
        exact congrArg packOutputs hfn
      · rw [hs] at he
        cases he
    · refine ⟨fun t ht => ?_, fun e' he => ?_⟩
      · rw [hs] at ht
        cases ht
      · rwa [hs', ← hs]
  case request => rw [step, step, hreq]

end Sys2Proof.Machine
end

section
/-! The decode tables (R59, R60): the rows of one table exclude each other, so the row that matches is the
one decoded, and the decoder answers nothing else. -/

namespace Sys2Proof.Machine

/-- Among elements of which no two satisfy `p` together, `find?` answers the one that does. -/
theorem find?_eq_some_of_exclusive {α : Type} {p : α → Bool} {l : List α}
    (hl : l.Pairwise fun a b => ¬ (p a = true ∧ p b = true)) {a : α} (ha : a ∈ l) (hp : p a = true) :
    l.find? p = some a := by
  induction hl with
  | nil => cases ha
  | @cons b l hb _ ih =>
    rcases List.mem_cons.mp ha with rfl | hmem
    · exact List.find?_cons_of_pos hp
    · rw [List.find?_cons_of_neg fun hpb => hb a hmem ⟨hpb, hp⟩]
      exact ih hmem

/-- One identifier meets two masked comparisons only if their values agree under both masks (R59). -/
theorem and_mask_eq_of_idMatches {m v m' v' : BitVec 12} {id : CanId} (h : idMatches m v id = true)
    (h' : idMatches m' v' id = true) : v &&& m' = v' &&& m := by
  rw [idMatches, beq_iff_eq] at h h'
  rw [← h, ← h', BitVec.and_assoc, BitVec.and_assoc, BitVec.and_comm m]

/-- No identifier matches two rows of format `RXID` (R100). -/
theorem rxIdRows_exclusive (id : CanId) :
    rxIdRows.Pairwise fun r r' =>
      ¬ (idMatches r.mask r.value id = true ∧ idMatches r'.mask r'.value id = true) := by
  have hvalues : rxIdRows.Pairwise fun r r' => r.value &&& r'.mask ≠ r'.value &&& r.mask := by decide
  exact hvalues.imp fun hne ⟨h, h'⟩ => hne (and_mask_eq_of_idMatches h h')

/-- No byte matches two rows of format `SDOB0` (R51, R105). -/
theorem sdoByteRows_exclusive (b0 : Byte) :
    sdoByteRows.Pairwise fun r r' => ¬ ((b0 == r.value) = true ∧ (b0 == r'.value) = true) := by
  have hvalues : sdoByteRows.Pairwise fun r r' => r.value ≠ r'.value := by decide
  exact hvalues.imp fun hne ⟨h, h'⟩ => hne ((eq_of_beq h).symm.trans (eq_of_beq h'))

/-- Format `RXID` decodes an identifier to a row's operation exactly where the row matches (R59). -/
theorem decodeRxId_eq_ok_iff {id : CanId} {i : Instr} :
    decodeRxId id = .ok i ↔
      ∃ row ∈ rxIdRows, idMatches row.mask row.value id = true ∧ row.op id = i := by
  constructor
  · intro h
    unfold decodeRxId at h
    split at h
    next row hrow =>
      cases h
      have hmatch := List.find?_some hrow
      exact ⟨row, List.mem_of_find?_eq_some hrow, hmatch, rfl⟩
    next => cases h
  · rintro ⟨row, hmem, hmatch, rfl⟩
    simp only [decodeRxId, find?_eq_some_of_exclusive (rxIdRows_exclusive id) hmem hmatch]

/-- Format `SDOB0` decodes byte 0 to a row's operation exactly where there is a byte and the row matches
(R60). -/
theorem decodeByte0_eq_ok_iff {len : LenPort} {b0 : Byte} {i : Instr} :
    decodeByte0 len b0 = .ok i ↔
      len ≠ 0 ∧ ∃ row ∈ sdoByteRows, (b0 == row.value) = true ∧ row.op len b0 = i := by
  unfold decodeByte0
  by_cases hlen : len = 0
  · simp [hlen]
  rw [if_neg hlen]
  constructor
  · intro h
    split at h
    next row hrow =>
      cases h
      have hmatch := List.find?_some hrow
      exact ⟨hlen, row, List.mem_of_find?_eq_some hrow, hmatch, rfl⟩
    next => cases h
  · rintro ⟨-, row, hmem, hmatch, rfl⟩
    simp only [find?_eq_some_of_exclusive (sdoByteRows_exclusive b0) hmem hmatch]

/-- An operation of format `RXID` is well-formed where its own row matches (R59), and of unit CLS. -/
theorem rxIdRow_wellFormed_and_unit (id : CanId) : ∀ row ∈ rxIdRows,
    WellFormed (row.op id) = idMatches row.mask row.value id ∧ unitOf (row.op id) = .cls := by
  simp [rxIdRows, WellFormed, unitOf]

/-- An operation of format `SDOB0` is well-formed where there is a byte and its own row matches (R60), and
of unit CLS. -/
theorem sdoByteRow_wellFormed_and_unit (len : LenPort) (b0 : Byte) : ∀ row ∈ sdoByteRows,
    WellFormed (row.op len b0) = (len != 0 && b0 == row.value) ∧ unitOf (row.op len b0) = .cls := by
  simp [sdoByteRows, WellFormed, unitOf]

end Sys2Proof.Machine
end

section
/-! Decoding is inverse to encoding (R64, R66). -/

namespace Sys2Proof.Machine

/-- Bytes placed from lane `p` up are their little-endian value, `p` lanes higher (R7, R33). -/
theorem lanesFrom_eq (p : Nat) (l : List Byte) : lanesFrom p l = leValue l <<< (8 * p) := by
  induction l generalizing p with
  | nil => simp [lanesFrom]
  | cons b bs ih =>
    rw [lanesFrom, ih, leValue_cons, BitVec.shiftLeft_or_distrib, ← BitVec.shiftLeft_add,
      Nat.mul_succ, Nat.add_comm 8]

/-- Lane `p + i` of a port shifted up by `p` lanes is lane `i` (R7). -/
theorem byteLane_shiftLeft (d : DataPort) {p i : Nat} (h : p + i < 8) :
    byteLane (d <<< (8 * p)) (p + i) = byteLane d i := by
  ext j hj
  have hbit : 8 * (p + i) + j - 8 * p = 8 * i + j := by omega
  have hlt : 8 * (p + i) + j < 64 := by omega
  have hge : ¬ 8 * (p + i) + j < 8 * p := by omega
  rw [byteLane_getElem _ _ hj, byteLane_getElem _ _ hj, BitVec.getLsbD_shiftLeft, hbit]
  simp [hlt, hge]

/-- A byte placed in a lane is read back from it (R7, R64). -/
theorem byteLane_lanesFrom (l : List Byte) {p i : Nat} (h : p + i < 8) :
    byteLane (lanesFrom p l) (p + i) = l.getD i 0 := by
  rw [lanesFrom_eq, byteLane_shiftLeft _ h, byteLane_leValue l (by omega)]

/-- The first of the bytes placed from lane `p` up stands in lane `p`. -/
theorem byteLane_lanesFrom_head (b : Byte) (bs : List Byte) {p : Nat} (hp : p < 8) :
    byteLane (lanesFrom p (b :: bs)) p = b := byteLane_lanesFrom (b :: bs) (i := 0) hp

/-- A row of format `RXID` is decoded from an identifier it matches. -/
theorem decodeRxId_of_matches (id : CanId) {mask value : BitVec 12} {op : CanId → Instr}
    (hmem : ⟨mask, value, op⟩ ∈ rxIdRows) (h : idMatches mask value id = true) :
    decodeRxId id = .ok (op id) := decodeRxId_eq_ok_iff.mpr ⟨_, hmem, h, rfl⟩

/-- A row of format `SDOB0` is decoded from the port its byte is placed on. -/
theorem decodeByte0_of_matches {len : LenPort} {b0 value : Byte} {op : LenPort → Byte → Instr}
    (hmem : ⟨value, op⟩ ∈ sdoByteRows) (h : (len != 0 && b0 == value) = true) :
    decodeByte0 len (byteLane (lanesFrom 0 [b0]) 0) = .ok (op len b0) := by
  obtain ⟨hlen, hbyte⟩ := Bool.and_eq_true_iff.mp h
  rw [byteLane_lanesFrom_head b0 [] (by decide)]
  exact decodeByte0_eq_ok_iff.mpr ⟨bne_iff_ne.mp hlen, _, hmem, hbyte, rfl⟩

/-- Settles O2, by the format of the operation's row: a row of a decode table is the one decoded where it
matches, and an operand that is a payload byte is read back from its lane. -/
theorem decodeOfEncode : Obligations.DecodeOfEncode := by
  unfold Obligations.DecodeOfEncode
  intro i h
  cases i with
  | buildGeneric | buildSdo | buildNmt => rfl
  | mNmt0 id | mNmthb id | mEmcy id | mLss7E4 id | mLss7E5 id | mTpdo1 id | mTpdo2 id | mTpdo3 id
  | mTpdo4 id | mRpdo1 id | mRpdo2 id | mRpdo3 id | mRpdo4 id | mSdoreq id | mSdoresp id =>
    exact decodeRxId_of_matches id (by simp [rxIdRows]) h
  | svcRead | svcWrite1 | svcWrite2 | svcWrite4 =>
    exact decodeByte0_of_matches (by simp [sdoByteRows]) h
  | classify | nodeId | packLe | unpackLe | concat => rfl
  | sdoCode len b0 =>
    show Except.ok (Instr.sdoCode len (byteLane (lanesFrom 0 [b0]) 0)) = _
    rw [byteLane_lanesFrom_head b0 [] (by decide)]
  | sdoIndex len b1 b2 =>
    have h2 : byteLane (lanesFrom 1 [b1, b2]) 2 = b2 := byteLane_lanesFrom [b1, b2] (i := 1) (by decide)
    show Except.ok (Instr.sdoIndex len (byteLane (lanesFrom 1 [b1, b2]) 1)
      (byteLane (lanesFrom 1 [b1, b2]) 2)) = _
    rw [byteLane_lanesFrom_head b1 [b2] (by decide), h2]
  | sdoSubindex len b3 =>
    show Except.ok (Instr.sdoSubindex len (byteLane (lanesFrom 3 [b3]) 3)) = _
    rw [byteLane_lanesFrom_head b3 [] (by decide)]

/-- The builders have no ill-formed operands (R61). -/
theorem wellFormed_of_enc {i : Instr} (h : unitOf i = .enc) : WellFormed i = true := by
  cases i with
  | buildGeneric | buildSdo | buildNmt => rfl
  | _ => cases h

/-- Settles O3: what a decode table answers is a row that matches, and the other formats of ENC and CLS
have no ill-formed operands. -/
theorem decodedIsWellFormed : Obligations.DecodedIsWellFormed := by
  unfold Obligations.DecodedIsWellFormed
  intro r i hunit hd
  unfold decode at hd
  cases hsel : r.sel with
  | encOp =>
    rw [hsel] at hd
    obtain ⟨j, hj, hjunit⟩ | herr := decodeEnc_cases r.enc
    · cases hj.symm.trans hd
      exact ⟨wellFormed_of_enc hjunit, hjunit⟩
    · cases herr.symm.trans hd
  | rxId =>
    rw [hsel] at hd
    obtain ⟨row, hmem, hmatch, rfl⟩ := decodeRxId_eq_ok_iff.mp hd
    obtain ⟨hwf, hcls⟩ := rxIdRow_wellFormed_and_unit r.rx.id row hmem
    exact ⟨hwf.trans hmatch, hcls⟩
  | sdoByte0 =>
    rw [hsel] at hd
    obtain ⟨hlen, row, hmem, hmatch, rfl⟩ := decodeByte0_eq_ok_iff.mp hd
    obtain ⟨hwf, hcls⟩ := sdoByteRow_wellFormed_and_unit r.rx.len (byteLane r.rx.data 0) row hmem
    exact ⟨hwf.trans (Bool.and_eq_true_iff.mpr ⟨bne_iff_ne.mpr hlen, hmatch⟩), hcls⟩
  | always row =>
    rw [hsel] at hd hunit
    cases hd
    cases row with
    | classify | nodeId | sdoCode | sdoIndex | sdoSubindex => exact ⟨rfl, rfl⟩
    | packLe | unpackLe | concat => exact absurd rfl hunit

/-- Which instruction a table word is decoded to does not depend on what else the ports held: the word
replaces everything the decoder reads (log entry 15). -/
theorem decode_presentWord (nbits w : Nat) (r r' : Request) :
    (presentWord nbits w r).map decode = (presentWord nbits w r').map decode := by
  unfold presentWord
  split_ifs <;> rfl

/-- The instruction of a table word is the one decoded from the ports it is presented on. -/
theorem map_decode_of_decodeTableWord {nbits w : Nat} {i : Instr} (h : decodeTableWord nbits w = some i) :
    (presentWord nbits w Request.zero).map decode = some (.ok i) := by
  unfold decodeTableWord at h
  split at h
  next r hr =>
    split at h
    next j hj =>
      cases h
      rw [hr, Option.map_some, hj]
    next => cases h
  next => cases h

/-- Settles O5: the word's request decodes as it does beside all-zero ports (`decode_presentWord`), and
`withFetchWord` presents that request. -/
theorem fetchWordIsDecoded : Obligations.FetchWordIsDecoded := by
  unfold Obligations.FetchWordIsDecoded
  intro s nbits w i h
  have hmap := (decode_presentWord nbits w s.req Request.zero).trans (map_decode_of_decodeTableWord h)
  obtain ⟨r, hr, hd⟩ := Option.map_eq_some_iff.mp hmap
  show decode ((presentWord nbits w s.req).getD s.req) = _
  rw [hr, Option.getD_some, hd]

/-- Settles O1, by evaluating the decoder on each word. -/
theorem specWordsDecode : Obligations.SpecWordsDecode := by
  unfold Obligations.SpecWordsDecode
  decide

end Sys2Proof.Machine
end

section
/-! The rows of format `SDOB0` as operations: each drives what `SDO_CODE` gives (R60, R105). -/

namespace Sys2Proof.Machine

/-- A byte that is the wire value of a ServiceCode decodes to it (R51, R105). -/
theorem sdoCode_of_wire {c : ServiceCode} {len : LenPort} {b0 : Byte} (hlen : len ≠ 0)
    (hw : svcWire c = some b0) : sdoCode len b0 = c := by
  rw [← svcRow_eq_sdoCode c, svcRow, if_pos ⟨hlen, hw⟩]

/-- An operation that drives `sdo_svc` with the result of `SDO_CODE` decodes the ServiceCode of R60 and
R105. -/
theorem decodesServiceCode_of_drives {op : LenPort → Byte → Instr}
    (h : ∀ len b0 s, exec (op len b0) s = .next (driveSvc (sdoCode len b0) s)) : DecodesServiceCode op := by
  intro len b0 s
  have hwire : ∀ c, len ≠ 0 → svcWire c = some b0 → svcTag (sdoCode len b0) = svcTag c :=
    fun _ hlen hw => congrArg svcTag (sdoCode_of_wire hlen hw)
  refine ⟨svcTag (sdoCode len b0), h len b0 s, fun hlen => ?empty,
    fun hlen hb => hwire .read hlen (congrArg some hb.symm),
    fun hlen hb => hwire .write1 hlen (congrArg some hb.symm),
    fun hlen hb => hwire .write2 hlen (congrArg some hb.symm),
    fun hlen hb => hwire .write4 hlen (congrArg some hb.symm), fun hlen h40 h2F h2B h23 => ?other⟩
  case empty => exact congrArg svcTag (if_pos hlen)
  case other =>
    rw [sdoCode, if_neg hlen, if_neg h40, if_neg h2F, if_neg h2B, if_neg h23]
    rfl

/-- Settles O29: a row's operation drives what `SDO_CODE` gives (`svcRow_eq_sdoCode`). -/
theorem sdoByteRowsDecode : Obligations.SdoByteRowsDecode := by
  unfold Obligations.SdoByteRowsDecode
  have hrow : ∀ (c : ServiceCode) (len : LenPort) (b0 : Byte) (s : State),
      (.next (driveSvc (svcRow c len b0) s) : Host.Outcome State Fault Refusal) =
        .next (driveSvc (sdoCode len b0) s) := fun c len b0 s => by rw [svcRow_eq_sdoCode]
  exact ⟨decodesServiceCode_of_drives (hrow .read), decodesServiceCode_of_drives (hrow .write1),
    decodesServiceCode_of_drives (hrow .write2), decodesServiceCode_of_drives (hrow .write4)⟩

end Sys2Proof.Machine
end

section
/-! Every output is one the block can produce (R54, R71, R75, R81, R100, R114). -/

namespace Sys2Proof.Machine

/-- `ENC()` answers a frame of one to eight bytes, or a refusal (R75). -/
theorem encResult_cases (q : EncReq) :
    (∃ f : RawFrame, encResult q = .frame f ∧ 1 ≤ f.data.length ∧ f.data.length ≤ 8) ∨
      ∃ c, encResult q = .invalid c := by
  unfold encResult
  rcases encOp_cases q.op with h | h | h | h
  · rw [if_pos h]
    by_cases hn : 1 ≤ q.len.toNat ∧ q.len.toNat ≤ 8
    · exact .inl ⟨_, buildGeneric_of_legal q.id hn q.data, by simpa using hn⟩
    · exact .inr ⟨_, buildGeneric_of_illegal q.id hn q.data⟩
  · rw [if_neg (by rw [h]; decide), if_pos h]
    cases hw : svcWireOfTag q.svc with
    | some wire => exact .inl ⟨_, buildSdo_of_wire hw q.id q.index q.sub, show 1 ≤ 8 by decide, Nat.le_refl 8⟩
    | none => exact .inr ⟨_, buildSdo_of_no_wire hw q.id q.index q.sub⟩
  · rw [if_neg (by rw [h]; decide), if_neg (by rw [h]; decide), if_pos h]
    cases hw : nmtWire Config.nmtWires q.cmd with
    | some wire => exact .inl ⟨_, buildNmt_of_wire hw q.node, show 1 ≤ 2 by decide, show 2 ≤ 8 by decide⟩
    | none => exact .inr ⟨_, buildNmt_of_no_wire hw q.node⟩
  · rw [h]
    exact .inr ⟨_, rfl⟩

/-- The ports of a frame of one to eight bytes: the lanes beyond them are zero (R71). -/
theorem framePorts_legal {f : RawFrame} (h1 : 1 ≤ f.data.length) (h8 : f.data.length ≤ 8) :
    EncPortsLegal (framePorts f) := by
  have hlen : (framePorts f).len.toNat = f.data.length :=
    Nat.mod_eq_of_lt (show f.data.length < 16 by omega)
  refine .inl ⟨rfl, rfl, by rwa [hlen], by rwa [hlen], fun i hi hbeyond => ?_⟩
  rw [hlen] at hbeyond
  exact (byteLane_leValue f.data hi).trans (List.getD_eq_default _ _ hbeyond)

/-- The ports of a refusal: a cause code and zeros (R54, R114). -/
theorem invalidPorts_legal (c : Cause) : EncPortsLegal (invalidPorts c) := by
  have hcode : 1 ≤ (causeCode c).toNat ∧ (causeCode c).toNat ≤ 4 := by cases c <;> decide
  exact .inr ⟨rfl, hcode.1, hcode.2, rfl, rfl, rfl⟩

/-- What ENC drives is a frame or a refusal, for every request. -/
theorem encOutputs_legal (q : EncReq) : EncPortsLegal (encOutputs q) := by
  rw [encOutputs]
  rcases encResult_cases q with ⟨f, hf, h1, h8⟩ | ⟨c, hc⟩
  · rw [hf]
    exact framePorts_legal h1 h8
  · rw [hc]
    exact invalidPorts_legal c

/-- What the map of R39 can give an identifier: no predicate and NONE, or one predicate and its code
(R55, R100). -/
abbrev IsMapRow (p : BitVec 14 × BitVec 4) : Prop :=
  p = (0, 0) ∨ ∃ k < 14, p = (BitVec.twoPow 14 k, categoryCode k)

/-- Every row of the map is one of these. -/
theorem identifierMap_isMapRow (n : Nat) : IsMapRow (identifierMap n) := by
  unfold identifierMap
  iterate 18 refine iteInduction (fun _ => by decide) fun _ => ?_
  decide

/-- The code of a predicate is not NONE's, nor one of the two that are never produced (R55). -/
theorem categoryCode_legal : ∀ k < 14, categoryCode k ≠ 0 ∧ categoryCode k ≠ 6 ∧ categoryCode k ≠ 7 := by
  decide

/-- The predicate vector and the category of every identifier are legal ones (R55, R99, R100). -/
theorem identifierMap_legal {n : Nat} {m : BitVec 14} {cat : BitVec 4} (h : identifierMap n = (m, cat)) :
    (∀ j k, m.getLsbD j = true → m.getLsbD k = true → j = k) ∧
      cat ≠ 6 ∧ cat ≠ 7 ∧ (cat = 0 ↔ m = 0) := by
  rcases identifierMap_isMapRow n with h0 | ⟨k, hk, hrow⟩
  · cases h.symm.trans h0
    exact ⟨fun _ _ hj => by simp at hj, by decide, by decide, by decide⟩
  · cases h.symm.trans hrow
    obtain ⟨hne0, hne6, hne7⟩ := categoryCode_legal k hk
    have hbit : BitVec.twoPow 14 k ≠ 0 := by
      intro hzero
      have := congrArg (·.getLsbD k) hzero
      simp [hk] at this
    refine ⟨fun i j hi hj => ?_, hne6, hne7, iff_of_false hne0 hbit⟩
    simp only [BitVec.getLsbD_twoPow, Bool.and_eq_true, decide_eq_true_eq] at hi hj
    omega

/-- What CLS drives is legal, for every frame (R50, R55, R99 to R101). -/
theorem clsOutputs_legal (f : RxPorts) : ClsPortsLegal (clsOutputs f) := by
  obtain ⟨hmatch, hcat, hmulti⟩ := followsIdentifierMap f.id
  have hrow : identifierMap f.id.toNat = ((clsOutputs f).matchBits, (clsOutputs f).cat) :=
    Prod.ext hmatch.symm hcat.symm
  obtain ⟨hone, hne6, hne7, hnone⟩ := identifierMap_legal hrow
  have htag : ∀ c, (svcTag c).toNat ≤ 4 := by intro c; cases c <;> decide
  exact ⟨hone, hmulti, hne6, hne7, hnone, htag _⟩

/-- The result of `PACK_LE` is at most eight bytes (R77). -/
theorem packOutputs_packed_length {a : PackArgs} {l : List Byte} (h : (packOutputs a).packed = some l) :
    l.length ≤ 8 := by
  obtain ⟨⟨-, h8⟩, hl⟩ := Option.ite_none_right_eq_some.mp h
  cases hl
  rwa [packBytes_length]

/-- The result of `CONCAT` is at most eight bytes (R81). -/
theorem packOutputs_joined_length {a : PackArgs} {l : List Byte} (h : (packOutputs a).joined = some l) :
    l.length ≤ 8 := by
  obtain ⟨-, hl⟩ := Option.ite_none_left_eq_some.mp h
  exact (joinIntoBuffer_eq_some.mp hl).2

/-- Settles O45: a next state is `settle` of the inputs present, whose outputs are legal unit by unit. -/
theorem stepKeepsOutputsLegal : Obligations.StepKeepsOutputsLegal := by
  unfold Obligations.StepKeepsOutputsLegal
  intro s t h
  rw [eq_settle_of_step h]
  exact ⟨encOutputs_legal _, clsOutputs_legal _, fun _ => packOutputs_packed_length,
    fun _ => packOutputs_joined_length⟩

end Sys2Proof.Machine
end

section
/-! The frame builder on its ports: what each operation answers, which ports it reads, and how `enc_op`
selects it (R67 to R75). -/

namespace Sys2Proof.Machine

/-- `BUILD_GENERIC` drives ENC's outputs with its result and nothing else (R68, R71). -/
theorem exec_buildGeneric (id : CanId) (n : LenPort) (d : DataPort) (s : State) :
    exec (.buildGeneric id n d) s = .next { s with tx := resultPorts (buildGeneric id n d) } := rfl

/-- So does `BUILD_SDO` (R69, R71). -/
theorem exec_buildSdo (svc : BitVec 3) (id : CanId) (index : BitVec 16) (sub : Byte) (s : State) :
    exec (.buildSdo svc id index sub) s =
      .next { s with tx := resultPorts (buildSdo svc id index sub) } := rfl

/-- So does `BUILD_NMT`, with the instance's wire bytes (R53, R70, R71). -/
theorem exec_buildNmt (cmd : BitVec 4) (node : Byte) (s : State) :
    exec (.buildNmt cmd node) s =
      .next { s with tx := resultPorts (buildNmt Config.nmtWires cmd node) } := rfl

/-- `BUILD_GENERIC` reads the bytes below the length and no other (R68, R72 (a)). -/
theorem buildGeneric_congr (id : CanId) {n : LenPort} {d e : DataPort}
    (h : ∀ i < n.toNat, byteLane d i = byteLane e i) : buildGeneric id n d = buildGeneric id n e := by
  have hbytes : packBytes d n.toNat = packBytes e n.toNat :=
    List.map_congr_left fun i hi => h i (List.mem_range.mp hi)
  rw [buildGeneric, buildGeneric, hbytes]

/-- Settles O7: by the ports of a legal and of an illegal length, and `buildGeneric_congr`. -/
theorem buildGenericResult : Obligations.BuildGenericResult := by
  unfold Obligations.BuildGenericResult
  refine ⟨fun id len d s hlen => ?_, fun id len d s hlen => ?_, fun id len d e s hbytes => ?_⟩
  · rw [exec_buildGeneric, resultPorts_buildGeneric_legal id hlen]
    exact ⟨_, rfl, rfl, rfl, rfl, rfl, fun i hi => (byteLane_lowBytes d hlen.2 i).trans (if_pos hi)⟩
  · rw [exec_buildGeneric, buildGeneric_of_illegal id (by omega)]
    rfl
  · rw [exec_buildGeneric, exec_buildGeneric, buildGeneric_congr id hbytes]

/-- Settles O8: by the ports of a tag with a wire value and of one without. -/
theorem buildSdoResult : Obligations.BuildSdoResult := by
  unfold Obligations.BuildSdoResult
  refine ⟨fun svc wire id index sub s hmem => ?_, fun svc id index sub s htag => ?_⟩
  · rw [exec_buildSdo, resultPorts_buildSdo_of_wire (svcWireOfTag_of_mem hmem)]
    rfl
  · have hillegal : ¬ (1 ≤ svc.toNat ∧ svc.toNat ≤ 4) := by
      rcases htag with rfl | h4
      · decide
      · omega
    rw [exec_buildSdo, resultPorts_buildSdo_of_no_wire (svcWireOfTag_eq_none hillegal)]
    rfl

/-- Settles O9: by the ports of a command with a wire value and of a tag without. -/
theorem buildNmtResult : Obligations.BuildNmtResult := by
  unfold Obligations.BuildNmtResult
  refine ⟨fun cmd wire node s hmem => ?_, fun cmd node s htag => ?_⟩
  · rw [exec_buildNmt, resultPorts_buildNmt_of_wire (nmtWire_of_mem hmem)]
    rfl
  · rw [exec_buildNmt, resultPorts_buildNmt_of_no_wire (nmtWire_eq_none _ htag)]
    rfl

/-- A frame from `BUILD_GENERIC` has the operand's identifier and its length, a legal one (R68, R75). -/
theorem buildGeneric_eq_frame {id : CanId} {n : LenPort} {d : DataPort} {f : RawFrame}
    (h : buildGeneric id n d = .frame f) : f.id = id ∧ f.data.length = n.toNat ∧ n.toNat ≤ 8 := by
  by_cases hn : 1 ≤ n.toNat ∧ n.toNat ≤ 8
  · cases (buildGeneric_of_legal id hn d).symm.trans h
    exact ⟨rfl, packBytes_length _ _, hn.2⟩
  · cases (buildGeneric_of_illegal id hn d).symm.trans h

/-- A frame from `BUILD_SDO` has the operand's identifier and eight bytes (R69, R75). -/
theorem buildSdo_eq_frame {svc : BitVec 3} {id : CanId} {index : BitVec 16} {sub : Byte} {f : RawFrame}
    (h : buildSdo svc id index sub = .frame f) : f.id = id ∧ f.data.length = 8 := by
  cases hw : svcWireOfTag svc with
  | none => cases (buildSdo_of_no_wire hw id index sub).symm.trans h
  | some wire =>
    cases (buildSdo_of_wire hw id index sub).symm.trans h
    exact ⟨rfl, rfl⟩

/-- A frame from `BUILD_NMT` has identifier 0 and two bytes (R70, R75). -/
theorem buildNmt_eq_frame {w : NmtWires} {cmd : BitVec 4} {node : Byte} {f : RawFrame}
    (h : buildNmt w cmd node = .frame f) : f.id = 0 ∧ f.data.length = 2 := by
  cases hw : nmtWire w cmd with
  | none => cases (buildNmt_of_no_wire hw node).symm.trans h
  | some wire =>
    cases (buildNmt_of_wire hw node).symm.trans h
    exact ⟨rfl, rfl⟩

/-- The length of a frame of at most eight bytes fits `tx_len` (R71). -/
theorem framePorts_len_toNat {f : RawFrame} (h8 : f.data.length ≤ 8) :
    (framePorts f).len.toNat = f.data.length :=
  Nat.mod_eq_of_lt (show f.data.length < 16 by omega)

/-- Lane `k` of `tx_data` is byte `k` of the frame, zero beyond its last (R71). -/
theorem byteLane_framePorts_data (f : RawFrame) {k : Nat} (hk : k < 8) :
    byteLane (framePorts f).data k = (f.data[k]?).getD 0 :=
  (byteLane_leValue f.data hk).trans List.getD_eq_getElem?_getD

/-- An operation whose result is a frame of at most eight bytes carries it on the ports as R71 says. -/
theorem exec_carries_frame {i : Instr} {r : BuildResult} {f : RawFrame} {s : State}
    (hexec : exec i s = .next { s with tx := resultPorts r }) (hr : r = .frame f)
    (h8 : f.data.length ≤ 8) :
    ∃ p : EncPorts, exec i s = .next { s with tx := p } ∧
      p.valid = 1 ∧ p.err = 0 ∧ p.id = f.id ∧ p.len.toNat = f.data.length ∧
      ∀ k < 8, p.data.extractLsb' (8 * k) 8 = (f.data[k]?).getD 0 := by
  subst hr
  exact ⟨framePorts f, hexec, rfl, rfl, rfl, framePorts_len_toNat h8,
    fun _ => byteLane_framePorts_data f⟩

/-- Settles O14: no builder makes a frame of more than eight bytes, and such a frame is carried whole. -/
theorem frameOnPorts : Obligations.FrameOnPorts := by
  unfold Obligations.FrameOnPorts
  rintro i f s (⟨id, len, d, rfl, hf⟩ | ⟨svc, id, index, sub, rfl, hf⟩ | ⟨cmd, node, rfl, hf⟩)
  · obtain ⟨-, hlen, hle⟩ := buildGeneric_eq_frame hf
    exact exec_carries_frame (exec_buildGeneric id len d s) hf (by omega)
  · obtain ⟨-, hlen⟩ := buildSdo_eq_frame hf
    exact exec_carries_frame (exec_buildSdo svc id index sub s) hf (by omega)
  · obtain ⟨-, hlen⟩ := buildNmt_eq_frame hf
    exact exec_carries_frame (exec_buildNmt cmd node s) hf (by omega)

/-- `enc_op` 0 selects `BUILD_GENERIC` (R67). -/
theorem encResult_of_op_zero {q : EncReq} (h : q.op = 0) :
    encResult q = buildGeneric q.id q.len q.data := by simp [encResult, h]

/-- `enc_op` 1 selects `BUILD_SDO` (R67). -/
theorem encResult_of_op_one {q : EncReq} (h : q.op = 1) :
    encResult q = buildSdo q.svc q.id q.index q.sub := by simp [encResult, h]

/-- `enc_op` 2 selects `BUILD_NMT` (R67). -/
theorem encResult_of_op_two {q : EncReq} (h : q.op = 2) :
    encResult q = buildNmt Config.nmtWires q.cmd q.node := by simp [encResult, h]

/-- `enc_op` 3 selects no operation (R67). -/
theorem encResult_of_op_three {q : EncReq} (h : q.op = 3) : encResult q = .invalid .badOp := by
  simp [encResult, h]

/-- Settles O10: an evaluation of ENC leaves the block as its inputs make it (`step_enc`), and there
ENC's outputs are already the selected operation's. -/
theorem encDispatch : Obligations.EncDispatch := by
  unfold Obligations.EncDispatch
  intro s hsel
  have hstep : step s = .next (driveBuild (encResult s.req.enc) (settle s.req)) := step_enc hsel
  refine ⟨fun h => ?_, fun h => ?_, fun h => ?_, fun h => ?_⟩
  · rw [hstep, encResult_of_op_zero h]
    rfl
  · rw [hstep, encResult_of_op_one h]
    rfl
  · rw [hstep, encResult_of_op_two h]
    rfl
  · rw [hstep, encResult_of_op_three h]
    rfl

/-- Settles O12: ENC's result is a frame of a legal length or a refusal (`encResult_cases`), a refusal is
not valid, and a frame has the identifier and the length of the selected operation. -/
theorem builtFrameIsLegal : Obligations.BuiltFrameIsLegal := by
  unfold Obligations.BuiltFrameIsLegal
  intro s t hsel hstep hvalid
  cases eq_settle_of_step hstep
  rw [settle_tx, encOutputs] at hvalid ⊢
  rcases encResult_cases s.req.enc with ⟨f, hf, h1, h8⟩ | ⟨c, hc⟩
  · have hlen := framePorts_len_toNat h8
    rw [hf, resultPorts_frame]
    refine ⟨hlen ▸ h1, hlen ▸ h8, fun h => ?_, fun h => ?_, fun h => ?_⟩
    · obtain ⟨hid, hdata, -⟩ := buildGeneric_eq_frame ((encResult_of_op_zero h).symm.trans hf)
      exact ⟨BitVec.eq_of_toNat_eq (hlen.trans hdata), hid⟩
    · obtain ⟨hid, hdata⟩ := buildSdo_eq_frame ((encResult_of_op_one h).symm.trans hf)
      exact ⟨BitVec.eq_of_toNat_eq (hlen.trans hdata), hid⟩
    · obtain ⟨hid, hdata⟩ := buildNmt_eq_frame ((encResult_of_op_two h).symm.trans hf)
      exact ⟨BitVec.eq_of_toNat_eq (hlen.trans hdata), hid⟩
  · rw [hc] at hvalid
    exact absurd hvalid (show (0 : Bit) ≠ 1 by decide)

/-- ENC's result depends on the ports the selected operation reads alone (R56, R72). -/
theorem encResult_congr {q r : EncReq} (h : SameOperands q r) : encResult q = encResult r := by
  obtain ⟨hop, hgeneric, hsdo, hnmt⟩ := h
  rcases encOp_cases q.op with h | h | h | h
  · obtain ⟨hid, hlen, hbytes⟩ := hgeneric h
    rw [encResult_of_op_zero h, encResult_of_op_zero (hop ▸ h), buildGeneric_congr q.id hbytes, hid, hlen]
  · obtain ⟨hsvc, hid, hindex, hsub⟩ := hsdo h
    rw [encResult_of_op_one h, encResult_of_op_one (hop ▸ h), hsvc, hid, hindex, hsub]
  · obtain ⟨hcmd, hnode⟩ := hnmt h
    rw [encResult_of_op_two h, encResult_of_op_two (hop ▸ h), hcmd, hnode]
  · rw [encResult_of_op_three h, encResult_of_op_three (hop ▸ h)]

/-- ENC makes a frame wherever the selected operation's own check passes (R68 to R70, R72 (d)). -/
theorem encResult_frame_of_check {q : EncReq}
    (h : q.op = 0 ∧ 1 ≤ q.len.toNat ∧ q.len.toNat ≤ 8 ∨
      q.op = 1 ∧ 1 ≤ q.svc.toNat ∧ q.svc.toNat ≤ 4 ∨ q.op = 2 ∧ q.cmd.toNat ≤ 4) :
    ∃ f, encResult q = .frame f := by
  rcases h with ⟨hop, hlen⟩ | ⟨hop, hsvc⟩ | ⟨hop, hcmd⟩
  · exact ⟨_, (encResult_of_op_zero hop).trans (buildGeneric_of_legal q.id hlen q.data)⟩
  · obtain ⟨wire, hw⟩ := Option.isSome_iff_exists.mp
      ((svcWireOfTag_isSome q.svc).trans (decide_eq_true hsvc))
    exact ⟨_, (encResult_of_op_one hop).trans (buildSdo_of_wire hw q.id q.index q.sub)⟩
  · obtain ⟨wire, hw⟩ := Option.isSome_iff_exists.mp
      ((nmtWire_isSome Config.nmtWires q.cmd).trans (decide_eq_true hcmd))
    exact ⟨_, (encResult_of_op_two hop).trans (buildNmt_of_wire hw q.node)⟩

/-- Settles O13: each step leaves ENC's outputs for its operands (`encResult_congr`), and a passed check
gives a frame (`encResult_frame_of_check`). -/
theorem ignoredPortsHaveNoEffect : Obligations.IgnoredPortsHaveNoEffect := by
  unfold Obligations.IgnoredPortsHaveNoEffect
  refine ⟨fun s s' hsel hsel' hsame => ?_, fun s hsel hcheck => ?_⟩
  · exact ⟨_, _, step_enc hsel, step_enc hsel', congrArg resultPorts (encResult_congr hsame)⟩
  · obtain ⟨f, hf⟩ := encResult_frame_of_check hcheck
    refine ⟨_, step_enc hsel, ?_⟩
    rw [settle_tx, encOutputs, hf]
    rfl

end Sys2Proof.Machine
end

section
/-!
The packing functions (42_packing.md R77 to R81): the number a byte sequence stands for, the round
trips, and the concatenation in its buffer of eight bytes.
-/

namespace Sys2Proof.Machine

/-- The sum of the bytes by powers of 256, the first byte least significant (R78). -/
def leNat (l : List Byte) : Nat := l.foldr (fun b acc => b.toNat + 256 * acc) 0

theorem leNat_cons (b : Byte) (bs : List Byte) : leNat (b :: bs) = b.toNat + 256 * leNat bs := rfl

/-- `n` bytes make a number below `2^(8n)`. -/
theorem leNat_lt (l : List Byte) : leNat l < 2 ^ (8 * l.length) := by
  induction l with
  | nil => decide
  | cons b bs ih =>
    have hb : b.toNat < 256 := b.isLt
    have hpow : 2 ^ (8 * (b :: bs).length) = 256 * 2 ^ (8 * bs.length) := by
      rw [List.length_cons, Nat.mul_add_one, Nat.pow_add, Nat.mul_comm]
    rw [leNat_cons, hpow]
    omega

/-- A little-endian value of at most eight bytes is the sum of its bytes by powers of 256 (R78). -/
theorem leValue_toNat {l : List Byte} (hl : l.length ≤ 8) : (leValue l).toNat = leNat l := by
  induction l with
  | nil => rfl
  | cons b bs ih =>
    have hb : b.toNat < 2 ^ 8 := b.isLt
    have hlen : bs.length + 1 ≤ 8 := hl
    have hrest : leNat bs < 2 ^ 56 :=
      (leNat_lt bs).trans_le (Nat.pow_le_pow_right (by decide) (by omega))
    have hfits : leNat bs <<< 8 < 2 ^ 64 := by rw [Nat.shiftLeft_eq]; omega
    have hwide : b.toNat < 2 ^ 64 := by omega
    rw [leValue_cons, BitVec.toNat_or, BitVec.toNat_shiftLeft, BitVec.toNat_setWidth, ih (by omega),
      Nat.mod_eq_of_lt hfits, Nat.mod_eq_of_lt hwide, Nat.or_comm, ← Nat.shiftLeft_add_eq_or_of_lt hb,
      Nat.shiftLeft_eq, leNat_cons]
    omega

/-- The lowest `n` bytes of a value are the value modulo `2^(8n)` (R79). -/
theorem lowBytes_toNat (d : DataPort) {n : Nat} (hn : n ≤ 8) :
    (lowBytes d n).toNat = d.toNat % 2 ^ (8 * n) := by
  have hmask : (2 ^ 64 - 1) >>> (64 - 8 * n) = 2 ^ (8 * n) - 1 := by interval_cases n <;> rfl
  rw [lowBytes, BitVec.toNat_and, BitVec.toNat_ushiftRight, BitVec.toNat_allOnes, hmask,
    Nat.and_two_pow_sub_one_eq_mod]

/-- Lane `i` of what `UNPACK_LE(s, n)` gives is byte `i` of `s` (R78). -/
theorem byteLane_unpackValue {l : List Byte} {n i : Nat} (hn : n ≤ 8) (hl : n ≤ l.length) (hi : i < n) :
    l[i]? = some (byteLane (unpackValue l n) i) := by
  have hil : i < l.length := by omega
  rw [unpackValue, byteLane_leValue _ (by omega)]
  simp [hi, hil]

/-- Unpacking packed bytes keeps the lowest `n` bytes (R79). -/
theorem unpackValue_packBytes (v : BitVec 64) {n : Nat} (hn : n ≤ 8) :
    unpackValue (packBytes v n) n = lowBytes v n := by
  rw [unpackValue, List.take_of_length_le (packBytes_length v n).le, leValue_packBytes v hn]

/-- Packing what was unpacked of a whole sequence gives it back (R79). -/
theorem packBytes_unpackValue {l : List Byte} (hl : l.length ≤ 8) :
    packBytes (unpackValue l l.length) l.length = l := by
  rw [unpackValue, List.take_length, packBytes_leValue hl]

/-- Settles O36: the bytes are the lanes of the value (`packBytes_getElem?`). -/
theorem packLeResult : Obligations.PackLeResult := by
  unfold Obligations.PackLeResult
  intro v n s hn
  exact ⟨packBytes v n, exec_packLe hn v s, packBytes_length v n, fun i hi => packBytes_getElem? v hi⟩

/-- Settles O37: the lanes of the value are the bytes (`byteLane_unpackValue`), and the value is their
sum by powers of 256 (`leValue_toNat`), which bounds it (`leNat_lt`). -/
theorem unpackLeResult : Obligations.UnpackLeResult := by
  unfold Obligations.UnpackLeResult
  intro bytes n s hn hlen
  have htake : (bytes.take n).length = n := List.length_take_of_le hlen
  have hsum : (unpackValue bytes n).toNat = leNat (bytes.take n) := leValue_toNat (htake.trans_le hn.2)
  have hlt : leNat (bytes.take n) < 2 ^ (8 * n) := by simpa only [htake] using leNat_lt (bytes.take n)
  exact ⟨unpackValue bytes n, exec_unpackLe hn hlen s, fun i hi => byteLane_unpackValue hn.2 hlen hi,
    hsum.trans_lt hlt, hsum⟩

/-- Settles O38: both functions answer inside their domain, and their values are inverse
(`unpackValue_packBytes`, `packBytes_unpackValue`). -/
theorem packingRoundTrips : Obligations.PackingRoundTrips := by
  unfold Obligations.PackingRoundTrips
  refine ⟨fun v n s hn => ?_, fun bytes n s hn hlen => ?_⟩
  · refine ⟨_, packBytes v n, _, unpackValue (packBytes v n) n, exec_packLe hn v s, rfl,
      exec_unpackLe hn (packBytes_length v n).ge _, rfl, ?_⟩
    rw [unpackValue_packBytes v hn.2, lowBytes_toNat v hn.2]
  · subst hlen
    refine ⟨_, unpackValue bytes bytes.length, _, exec_unpackLe hn le_rfl s, rfl, exec_packLe hn _ _, ?_⟩
    rw [putPacked_fn_packed, packBytes_unpackValue hn.2]

/-- The length of a concatenation is "the sum of the lengths" (R80). -/
theorem joinGroups_length (gs : List (List Byte)) :
    (joinGroups gs).length = (gs.map List.length).sum := List.length_flatten

/-- A concatenation is the first group with the others appended one after another (R80). -/
theorem joinGroups_cons_eq_foldl (g : List Byte) (gs : List (List Byte)) :
    joinGroups (g :: gs) = gs.foldl (· ++ ·) g := by
  induction gs generalizing g with
  | nil => simp [joinGroups]
  | cons h gs ih =>
    rw [List.foldl_cons, ← ih]
    simp [joinGroups]

/-- Above the capacity there is no joined sequence (R81). -/
theorem joinIntoBuffer_eq_none {gs : List (List Byte)} (h : 8 < (joinGroups gs).length) :
    joinIntoBuffer gs = none := if_neg (Nat.not_le_of_lt h)

/-- `CONCAT` within the capacity, the joined sequence in the result (R80). -/
theorem exec_concat_of_fits {gs : List (List Byte)} (h : gs ≠ []) (hfit : (joinGroups gs).length ≤ 8)
    (s : State) : exec (.concat gs) s = .next (putJoined (some (joinGroups gs)) s) := by
  rw [exec_concat h, joinIntoBuffer_eq_some.mpr ⟨rfl, hfit⟩]

/-- Settles O39: within the capacity the result is `joinGroups`, for which one group made of all the
groups stands as well. -/
theorem concatResult : Obligations.ConcatResult := by
  unfold Obligations.ConcatResult
  intro g gs s hsum
  have hfit : (joinGroups (g :: gs)).length ≤ 8 := (joinGroups_length _).trans_le hsum
  have hone : joinGroups [joinGroups (g :: gs)] = joinGroups (g :: gs) := List.append_nil _
  have hexec := exec_concat_of_fits (List.cons_ne_nil g gs) hfit s
  have hregroup := exec_concat_of_fits (List.cons_ne_nil (joinGroups (g :: gs)) []) (hone.symm ▸ hfit) s
  refine ⟨joinGroups (g :: gs), hexec, joinGroups_cons_eq_foldl g gs, joinGroups_length _, ?_⟩
  rw [hregroup, hexec, hone]

/-- Settles O40: more than eight bytes are never no group, so `CONCAT` answers, with no joined sequence
(`joinIntoBuffer_eq_none`). -/
theorem concatOverCapacity : Obligations.ConcatOverCapacity := by
  unfold Obligations.ConcatOverCapacity
  intro groups s hsum
  have hne : groups ≠ [] := by rintro rfl; exact absurd hsum (by decide)
  have hlong : 8 < (joinGroups groups).length := hsum.trans_eq (joinGroups_length groups).symm
  rw [exec_concat hne, joinIntoBuffer_eq_none hlong]
  rfl

/-- `PACK_LE` outside its domain (decision D19). -/
theorem exec_packLe_of_count {n : Nat} (h : ¬ countInDomain n) (v : BitVec 64) (s : State) :
    exec (.packLe v n) s = .refused .byteCountOutsideDomain := if_neg h

/-- `UNPACK_LE` of a count outside its domain (decision D19). -/
theorem exec_unpackLe_of_count {n : Nat} (h : ¬ countInDomain n) (l : List Byte) (s : State) :
    exec (.unpackLe l n) s = .refused .byteCountOutsideDomain := if_neg h

/-- `UNPACK_LE` of a sequence shorter than its count (log entry 12). -/
theorem exec_unpackLe_of_short {n : Nat} {l : List Byte} (h : countInDomain n) (hl : l.length < n)
    (s : State) : exec (.unpackLe l n) s = .refused .sequenceTooShort :=
  (if_pos h).trans (if_neg (Nat.not_le_of_lt hl))

/-- `CONCAT` of no group (log entry 12). -/
theorem exec_concat_nil (s : State) : exec (.concat []) s = .refused .noGroups := rfl

/-- The counts outside the domain are 0 and those above eight (R77, R78). -/
theorem not_countInDomain {n : Nat} (h : n = 0 ∨ 8 < n) : ¬ countInDomain n := by
  rintro ⟨hlow, hhigh⟩
  have hmax : n ≤ 8 := hhigh
  omega

/-- Settles O41: the refusal of each function outside its domain, one lemma per case. -/
theorem packingDomainRefused : Obligations.PackingDomainRefused := by
  unfold Obligations.PackingDomainRefused
  refine ⟨fun v n s hn => ?_, fun bytes n s hn => ?_, fun bytes n s hn hshort => ?_, exec_concat_nil⟩
  · exact exec_packLe_of_count (not_countInDomain hn) v s
  · exact exec_unpackLe_of_count (not_countInDomain hn) bytes s
  · exact exec_unpackLe_of_short hn hshort s

end Sys2Proof.Machine
end

section
/-!
The identifier predicates (43_classifier.md R84 to R97): each is a masked comparison, drives one bit of
`cls_match` alone, and gives the category of that bit.
-/

namespace Sys2Proof.Machine

/-- A masked comparison as an equation (R59). -/
theorem idMatches_iff {mask value : BitVec 12} {id : CanId} :
    idMatches mask value id = true ↔ id.setWidth 12 &&& mask = value := beq_iff_eq

/-- The mask 0xFFF compares the whole identifier (R84, R87). -/
theorem setWidth_and_FFF_eq_iff (id value : CanId) :
    id.setWidth 12 &&& (0xFFF : BitVec 12) = value.setWidth 12 ↔ id = value := by
  have hmask : id.setWidth 12 &&& 0xFFF = id.setWidth 12 := BitVec.and_allOnes
  rw [hmask]
  refine ⟨fun h => ?_, congrArg _⟩
  have hback := congrArg (BitVec.setWidth 11) h
  rwa [BitVec.setWidth_setWidth_of_le _ (by decide), BitVec.setWidth_setWidth_of_le _ (by decide),
    BitVec.setWidth_eq, BitVec.setWidth_eq] at hback

/-- The mask 0xF80 compares the function code `rx_id[10:7]` (R85, R86, R88 to R97). -/
theorem setWidth_and_F80_eq_iff (id : CanId) (fn : BitVec 4) :
    id.setWidth 12 &&& (0xF80 : BitVec 12) = fn.setWidth 12 <<< 7 ↔ id.extractLsb' 7 4 = fn := by
  have hback : ∀ fn : BitVec 4, (fn.setWidth 12 <<< 7).extractLsb' 7 4 = fn := by decide
  rw [setWidth_and_F80]
  exact ⟨fun h => by rw [← hback (id.extractLsb' 7 4), h, hback], fun h => by rw [h]⟩

/-- The identifiers of one function code are a block of 128. -/
theorem functionCode_eq_iff (id : CanId) (fn : BitVec 4) :
    id.extractLsb' 7 4 = fn ↔ 128 * fn.toNat ≤ id.toNat ∧ id.toNat ≤ 128 * fn.toNat + 127 := by
  rw [← BitVec.toNat_inj, functionCode_toNat]
  omega

/-- An operation that drives bit `k` with the value of a predicate drives that bit and no other. -/
theorem drivesOnlyBit_of_exec {op : CanId → Instr} {k : Nat} {b : CanId → Bool} {p : CanId → Prop}
    (hk : k < 14) (hexec : ∀ id s, exec (op id) s = .next (driveMatch k (b id) s))
    (hp : ∀ id, b id = true ↔ p id) : DrivesOnlyBit op k p := by
  intro id s
  refine ⟨setMatchBit k (b id) s.cls.matchBits, hexec id s, ?_, fun j hj =>
    setMatchBit_getLsbD_other hj _ _⟩
  rw [setMatchBit_getLsbD_self hk]
  exact hp id

/-- `CLASSIFY` drives the predicate vector, its category and `cls_multi`, and nothing else (R99, R101). -/
theorem exec_classify (id : CanId) (s : State) :
    exec (.classify id) s = .next (driveCategory (matchVector id) s) := rfl

/-- The category of an identifier a predicate matches is that predicate's: no other one matches (R99,
R100). -/
theorem categoryOf_matchVector {id : CanId} {k : Nat} (h : (matchVector id).getLsbD k = true) :
    categoryOf (matchVector id) = categoryCode k := by
  obtain ⟨hmatch, hcat, -⟩ := followsIdentifierMap id
  rw [hcat]
  rw [hmatch] at h
  rcases identifierMap_isMapRow id.toNat with hrow | ⟨j, hj, hrow⟩
  · simp [hrow] at h
  · rw [hrow] at h ⊢
    simp only [BitVec.getLsbD_twoPow, Bool.and_eq_true, decide_eq_true_eq] at h
    rw [h.2]

/-- What implies a predicate gives that predicate's category. -/
theorem givesCategory_of_predicate {p : CanId → Prop} {k : Nat} (hk : k < 14)
    (h : ∀ id, p id → (predicates id).getD k false = true) : GivesCategory p (categoryCode k) := by
  intro id s hp
  refine ⟨_, exec_classify id s, ?_⟩
  rw [driveCategory_cls_cat]
  exact categoryOf_matchVector ((matchVector_getLsbD id hk).trans (h id hp))

/-- A predicate that compares the function code is as R85, R86 and R88 to R97 say. -/
theorem rangePredicate_of_exec {op : CanId → Instr} {k : Nat} (fn : BitVec 4) (hk : k < 14)
    (hexec : ∀ id s, exec (op id) s = .next (driveMatch k (idMatches 0xF80 (fn.setWidth 12 <<< 7) id) s))
    (hpred : ∀ id, (predicates id).getD k false = idMatches 0xF80 (fn.setWidth 12 <<< 7) id) :
    RangePredicate op k (fn.setWidth 12 <<< 7) fn (128 * fn.toNat) (categoryCode k) := by
  refine ⟨drivesOnlyBit_of_exec hk hexec fun _ => idMatches_iff, fun id => ?_,
    givesCategory_of_predicate hk fun id h => (hpred id).trans (idMatches_iff.mpr h)⟩
  have hcode := setWidth_and_F80_eq_iff id fn
  exact ⟨hcode, hcode.trans (functionCode_eq_iff id fn)⟩

/-- Settles O16: `M_NMT0` compares the whole identifier, the other two the function code. -/
theorem predicatesNmtEmcy : Obligations.PredicatesNmtEmcy := by
  unfold Obligations.PredicatesNmtEmcy
  have hzero : ∀ id : CanId, id.setWidth 12 &&& 0xFFF = (0x000 : BitVec 12) ↔ id = 0x000 :=
    fun id => setWidth_and_FFF_eq_iff id 0x000
  refine ⟨drivesOnlyBit_of_exec (by decide) (fun _ _ => rfl) fun _ => idMatches_iff, hzero, ?category,
    rangePredicate_of_exec 0b1110 (by decide) (fun _ _ => rfl) fun _ => rfl,
    rangePredicate_of_exec 0b0001 (by decide) (fun _ _ => rfl) fun _ => rfl⟩
  case category =>
    exact givesCategory_of_predicate (k := 0) (by decide) fun id h => idMatches_iff.mpr ((hzero id).mpr h)

/-- The predicate `M_LSS` as a disjunction of equations (R87). -/
theorem predLss_iff (id : CanId) : predLss id = true ↔
    id.setWidth 12 &&& 0xFFF = 0x7E4 ∨ id.setWidth 12 &&& 0xFFF = 0x7E5 := by
  rw [predLss, Bool.or_eq_true, idMatches_iff, idMatches_iff]

/-- Settles O17: the operation of either row drives bit 3 with `M_LSS`. -/
theorem predicateLss : Obligations.PredicateLss := by
  unfold Obligations.PredicateLss
  have hids : ∀ id : CanId, (id.setWidth 12 &&& 0xFFF = (0x7E4 : BitVec 12) ∨
      id.setWidth 12 &&& 0xFFF = (0x7E5 : BitVec 12)) ↔ (id = 0x7E4 ∨ id = 0x7E5) :=
    fun id => or_congr (setWidth_and_FFF_eq_iff id 0x7E4) (setWidth_and_FFF_eq_iff id 0x7E5)
  refine ⟨drivesOnlyBit_of_exec (by decide) (fun _ _ => rfl) predLss_iff,
    drivesOnlyBit_of_exec (by decide) (fun _ _ => rfl) predLss_iff, hids, ?category⟩
  case category =>
    exact givesCategory_of_predicate (k := 3) (by decide) fun id h => (predLss_iff id).mpr ((hids id).mpr h)

/-- Settles O18: each compares the function code (`rangePredicate_of_exec`). -/
theorem predicatesTpdo : Obligations.PredicatesTpdo := by
  unfold Obligations.PredicatesTpdo
  exact ⟨rangePredicate_of_exec 0b0011 (by decide) (fun _ _ => rfl) fun _ => rfl,
    rangePredicate_of_exec 0b0101 (by decide) (fun _ _ => rfl) fun _ => rfl,
    rangePredicate_of_exec 0b0111 (by decide) (fun _ _ => rfl) fun _ => rfl,
    rangePredicate_of_exec 0b1001 (by decide) (fun _ _ => rfl) fun _ => rfl⟩

/-- Settles O19: likewise. -/
theorem predicatesRpdo : Obligations.PredicatesRpdo := by
  unfold Obligations.PredicatesRpdo
  exact ⟨rangePredicate_of_exec 0b0100 (by decide) (fun _ _ => rfl) fun _ => rfl,
    rangePredicate_of_exec 0b0110 (by decide) (fun _ _ => rfl) fun _ => rfl,
    rangePredicate_of_exec 0b1000 (by decide) (fun _ _ => rfl) fun _ => rfl,
    rangePredicate_of_exec 0b1010 (by decide) (fun _ _ => rfl) fun _ => rfl⟩

/-- Settles O20: likewise. -/
theorem predicatesSdo : Obligations.PredicatesSdo := by
  unfold Obligations.PredicatesSdo
  exact ⟨rangePredicate_of_exec 0b1100 (by decide) (fun _ _ => rfl) fun _ => rfl,
    rangePredicate_of_exec 0b1011 (by decide) (fun _ _ => rfl) fun _ => rfl⟩

end Sys2Proof.Machine
end

section
/-!
`CLASSIFY`, `NODE_ID` and a whole evaluation of CLS (43_classifier.md R98 to R104), and the decoded row of
each table.
-/

namespace Sys2Proof.Machine

/-- The predicates are the rows of the classification table, each on its own (R98). -/
theorem predicates_eq_map (id : CanId) :
    predicates id = classRows.map fun row => row.2.1.any fun value => idMatches row.1 value id := by
  simp [predicates, classRows, predNmt0, predNmthb, predEmcy, predLss, predTpdo1, predTpdo2, predTpdo3,
    predTpdo4, predRpdo1, predRpdo2, predRpdo3, predRpdo4, predSdoreq, predSdoresp]

/-- A row matches where one of its values does (R59, R87). -/
theorem any_idMatches_iff (row : BitVec 12 × List (BitVec 12) × BitVec 4) (id : CanId) :
    (row.2.1.any fun value => idMatches row.1 value id) = true ↔ rowMatches row id := by
  simp [idMatches_iff, rowMatches]

/-- The table has a row for each bit of `cls_match` and no more (R55). -/
theorem lt_of_classRows_getElem? {k : Nat} {row : BitVec 12 × List (BitVec 12) × BitVec 4}
    (h : classRows[k]? = some row) : k < 14 := (List.getElem?_eq_some_iff.mp h).1

/-- Bit `k` of `cls_match` says whether row `k` matches (R98). -/
theorem matchVector_getLsbD_iff {id : CanId} {k : Nat} {row : BitVec 12 × List (BitVec 12) × BitVec 4}
    (h : classRows[k]? = some row) : (matchVector id).getLsbD k = true ↔ rowMatches row id := by
  rw [matchVector_getLsbD id (lt_of_classRows_getElem? h), predicates_eq_map, List.getD_eq_getElem?_getD,
    List.getElem?_map, h]
  exact any_idMatches_iff row id

/-- `CODE(k)` is the last column of the table (R55). -/
theorem categoryCode_of_row {k : Nat} {row : BitVec 12 × List (BitVec 12) × BitVec 4}
    (h : classRows[k]? = some row) : categoryCode k = row.2.2 := by
  have hcodes : categoryCodes = classRows.map fun row => row.2.2 := rfl
  rw [categoryCode, hcodes, List.getD_eq_getElem?_getD, List.getElem?_map, h]
  rfl

/-- A bit of the OR, over a list of numbers, of the codes of those that match: that bit was there before,
or a code has it. -/
theorem foldl_or_categoryCode_getLsbD (m : BitVec 14) (l : List Nat) (cat : BitVec 4) (b : Nat) :
    (l.foldl (fun cat k => if m.getLsbD k then cat ||| categoryCode k else cat) cat).getLsbD b = true ↔
      cat.getLsbD b = true ∨ ∃ k ∈ l, m.getLsbD k = true ∧ (categoryCode k).getLsbD b = true := by
  induction l generalizing cat with
  | nil => simp
  | cons k l ih =>
    rw [List.foldl_cons, ih]
    by_cases hk : m.getLsbD k = true <;> simp [hk, or_assoc]

/-- `cls_cat` is "the bitwise OR of the codes of all" matching predicates (R99). -/
theorem categoryOf_getLsbD (m : BitVec 14) (b : Nat) :
    (categoryOf m).getLsbD b = true ↔
      ∃ k < 14, m.getLsbD k = true ∧ (categoryCode k).getLsbD b = true := by
  simp [categoryOf, foldl_or_categoryCode_getLsbD]

/-- A bit of `cls_cat` comes from a row that matches (R99). -/
theorem categoryOf_matchVector_getLsbD (id : CanId) (b : Nat) :
    (categoryOf (matchVector id)).getLsbD b = true ↔
      ∃ (k : Nat) (row : BitVec 12 × List (BitVec 12) × BitVec 4), classRows[k]? = some row ∧
        rowMatches row id ∧ row.2.2.getLsbD b = true := by
  rw [categoryOf_getLsbD]
  constructor
  · rintro ⟨k, hk, hmatch, hbit⟩
    have hrow : classRows[k]? = some classRows[k] := List.getElem?_eq_getElem hk
    exact ⟨k, _, hrow, (matchVector_getLsbD_iff hrow).mp hmatch, categoryCode_of_row hrow ▸ hbit⟩
  · rintro ⟨k, row, hrow, hmatch, hbit⟩
    exact ⟨k, lt_of_classRows_getElem? hrow, (matchVector_getLsbD_iff hrow).mpr hmatch,
      categoryCode_of_row hrow ▸ hbit⟩

/-- Settles O21: the vector's bits are the rows (`matchVector_getLsbD_iff`), and the category's bits are
those of the matching rows' codes (`categoryOf_matchVector_getLsbD`). -/
theorem classifyResult : Obligations.ClassifyResult := by
  unfold Obligations.ClassifyResult
  intro id s
  refine ⟨matchVector id, categoryOf (matchVector id), multiOf (matchVector id), exec_classify id s,
    fun k row hrow => matchVector_getLsbD_iff hrow, categoryOf_matchVector_getLsbD id,
    fun k row hrow hmatch _ => ?one, fun hnone => ?none⟩
  case one =>
    rw [categoryOf_matchVector ((matchVector_getLsbD_iff hrow).mpr hmatch), categoryCode_of_row hrow]
  case none =>
    have hbit : ∀ b, ¬ (categoryOf (matchVector id)).getLsbD b = true := by
      intro b h
      obtain ⟨k, row, hrow, hmatch, -⟩ := (categoryOf_matchVector_getLsbD id b).mp h
      exact hnone row (List.mem_of_getElem? hrow) hmatch
    exact BitVec.eq_of_getLsbD_eq fun b _ =>
      (Bool.eq_false_of_not_eq_true (hbit b)).trans BitVec.getLsbD_zero.symm

/-- At most one predicate matches an identifier (R100). -/
theorem matchVector_exclusive (id : CanId) {j k : Nat} (hj : (matchVector id).getLsbD j = true)
    (hk : (matchVector id).getLsbD k = true) : j = k := by
  obtain ⟨hone, -⟩ := clsOutputs_legal ⟨id, 0, 0⟩
  exact hone j k hj hk

/-- Settles O22: `CLASSIFY` drives the predicate vector, of which at most one bit is 1
(`matchVector_exclusive`). -/
theorem classificationExclusive : Obligations.ClassificationExclusive := by
  unfold Obligations.ClassificationExclusive
  exact fun id s => ⟨_, exec_classify id s, fun _ _ => matchVector_exclusive id⟩

/-- Settles O23: no two bits are 1 (`matchVector_exclusive`), and `cls_multi` is 0
(`followsIdentifierMap`). -/
theorem multiNeverSet : Obligations.MultiNeverSet := by
  unfold Obligations.MultiNeverSet
  intro s hs
  obtain ⟨-, -, hmulti⟩ := followsIdentifierMap s.req.rx.id
  refine ⟨_, step_cls hs, iff_of_false (fun h => ?_) ?_, hmulti⟩
  · exact absurd (hmulti.symm.trans h) (by decide)
  · rintro ⟨j, k, hne, hj, hk⟩
    exact hne (matchVector_exclusive _ hj hk)

/-- Settles O26: each of the four outputs is a function of the identifier. -/
theorem classDependsOnIdAlone : Obligations.ClassDependsOnIdAlone := by
  unfold Obligations.ClassDependsOnIdAlone
  intro s s' hs hs' hid
  exact ⟨_, _, step_cls hs, step_cls hs', congrArg matchVector hid,
    congrArg (categoryOf ∘ matchVector) hid, congrArg (multiOf ∘ matchVector) hid, congrArg nodeIdOf hid⟩

/-- Settles O27: codes 6 and 7, which alone stand for no category, are never produced (`clsOutputs_legal`),
and each extractor answers its default where the frame is too short. -/
theorem classificationIsTotal : Obligations.ClassificationIsTotal := by
  unfold Obligations.ClassificationIsTotal
  intro s hs
  obtain ⟨-, -, hne6, hne7, hnone, -⟩ := clsOutputs_legal s.req.rx
  obtain ⟨c, hc⟩ := Option.isSome_iff_exists.mp
    ((categoryOfCode_isSome _).trans (decide_eq_true ⟨hne6, hne7⟩))
  refine ⟨_, c, step_cls hs, hc, nodeIdOf_eq _, fun hmatch => ?_, fun hlen => congrArg svcTag (if_pos hlen),
    fun hlen => if_pos hlen, fun hlen => if_pos hlen⟩
  rw [hnone.mpr hmatch] at hc
  exact (Option.some.inj hc).symm

/-- Settles O25: `NODE_ID` drives `rx_id[6:0]` (`nodeIdOf_eq`), which is the identifier under the mask. -/
theorem nodeIdResult : Obligations.NodeIdResult := by
  unfold Obligations.NodeIdResult
  intro id s
  refine ⟨nodeIdOf id, rfl, nodeIdOf_eq id, BitVec.eq_of_toNat_eq ?_⟩
  have hmask : (id &&& 0x7F).toNat = id.toNat % 128 := Nat.and_two_pow_sub_one_eq_mod id.toNat 7
  rw [nodeIdOf, BitVec.toNat_setWidth, BitVec.toNat_setWidth, hmask]
  omega

/-- Settles O4: the decoder answers exactly the row that matches, in both tables
(`decodeRxId_eq_ok_iff`, `decodeByte0_eq_ok_iff`). -/
theorem rowOrderImmaterial : Obligations.RowOrderImmaterial := by
  unfold Obligations.RowOrderImmaterial
  refine ⟨fun id row hmem hmatch => ?_, fun len b0 row hmem hlen hbyte => ?_⟩
  · exact decodeRxId_eq_ok_iff.mpr ⟨row, hmem, idMatches_iff.mpr hmatch, rfl⟩
  · exact decodeByte0_eq_ok_iff.mpr ⟨hlen, row, hmem, beq_iff_eq.mpr hbyte, rfl⟩

end Sys2Proof.Machine
end

section
/-!
The SDO field extractors (44_sdo_extract.md R105 to R111): what each answers, that only the lengths up to
3 matter to them, and the round trip from ENC's operands through the wires to CLS's outputs.
-/

namespace Sys2Proof.Machine

/-- `SDO_CODE` drives `sdo_svc` and nothing else (R105). -/
theorem exec_sdoCode (len : LenPort) (b0 : Byte) (s : State) :
    exec (.sdoCode len b0) s = .next (driveSvc (sdoCode len b0) s) := rfl

/-- `SDO_INDEX` drives `sdo_index` and nothing else (R107). -/
theorem exec_sdoIndex (len : LenPort) (b1 b2 : Byte) (s : State) :
    exec (.sdoIndex len b1 b2) s = .next (driveIndex (sdoIndex len b1 b2) s) := rfl

/-- `SDO_SUBINDEX` drives `sdo_sub` and nothing else (R108). -/
theorem exec_sdoSubindex (len : LenPort) (b3 : Byte) (s : State) :
    exec (.sdoSubindex len b3) s = .next (driveSub (sdoSubindex len b3) s) := rfl

/-- `SDO_INDEX` is byte 2 above byte 1, zero below three bytes (R107). -/
theorem sdoIndex_eq (len : LenPort) (b1 b2 : Byte) :
    sdoIndex len b1 b2 = if len.toNat < 3 then 0 else b2 ++ b1 := by
  rw [sdoIndex, unpackValue_two]
  rfl

/-- `SDO_SUBINDEX` is byte 3, zero below four bytes (R108). -/
theorem sdoSubindex_eq (len : LenPort) (b3 : Byte) :
    sdoSubindex len b3 = if len.toNat < 4 then 0 else b3 := rfl

/-- Settles O28: `SDO_CODE` drives its own result, which decodes the ServiceCode. -/
theorem sdoCodeResult : Obligations.SdoCodeResult := by
  unfold Obligations.SdoCodeResult
  exact decodesServiceCode_of_drives exec_sdoCode

/-- Settles O30: by the value of `SDO_INDEX` (`sdoIndex_eq`). -/
theorem sdoIndexResult : Obligations.SdoIndexResult := by
  unfold Obligations.SdoIndexResult
  intro len b1 b2 s
  rw [exec_sdoIndex, sdoIndex_eq, driveIndex]

/-- Settles O31: by the value of `SDO_SUBINDEX` (`sdoSubindex_eq`). -/
theorem sdoSubindexResult : Obligations.SdoSubindexResult := by
  unfold Obligations.SdoSubindexResult
  intro len b3 s
  rw [exec_sdoSubindex, sdoSubindex_eq, driveSub]

/-- Two lengths of at least four bytes give the same outputs of CLS: no extractor tells them apart
(R105, R107, R108, R110). -/
theorem clsOutputs_congr_len (id : CanId) {len len' : LenPort} (d : DataPort) (h : 4 ≤ len.toNat)
    (h' : 4 ≤ len'.toNat) : clsOutputs ⟨id, len, d⟩ = clsOutputs ⟨id, len', d⟩ := by
  have habove : ∀ {n : LenPort}, 4 ≤ n.toNat → n.toNat ≠ 0 ∧ ¬ n.toNat < 3 ∧ ¬ n.toNat < 4 := by omega
  simp only [clsOutputs_eq_clsReference, clsReference, svcTagReference, habove h, habove h']

/-- Settles O33: a length above eight and eight itself are both at least four (`clsOutputs_congr_len`). -/
theorem longLengthsActAsEight : Obligations.LongLengthsActAsEight := by
  unfold Obligations.LongLengthsActAsEight
  intro s hs hlen
  have hfour : 4 ≤ s.req.rx.len.toNat := by omega
  exact ⟨_, _, step_cls hs, step_cls hs, clsOutputs_congr_len _ _ hfour (by decide)⟩

/-- Settles O34: an evaluation of CLS leaves the outputs of the port tables (`clsStepMeetsReference`),
whose three SDO fields are written in the length and the data alone. -/
theorem extractorsNotGated : Obligations.ExtractorsNotGated := by
  unfold Obligations.ExtractorsNotGated
  refine ⟨fun s s' hs hs' hlen hdata => ?_, fun s hs => ?_⟩
  · refine ⟨_, _, clsStepMeetsReference s hs, clsStepMeetsReference s' hs', ?_⟩
    simp only [reference, clsReference, hlen, hdata, and_self]
  · exact ⟨_, clsStepMeetsReference s hs, rfl, rfl, rfl⟩

/-- A tag is that of the ServiceCode it stands for (R50). -/
theorem svcTag_of_svcOfTag {tag : BitVec 3} {c : ServiceCode} (h : svcOfTag tag = some c) :
    svcTag c = tag := by
  have hback : ∀ tag : BitVec 3, ∀ c ∈ svcOfTag tag, svcTag c = tag := by decide
  exact hback tag c h

/-- `SDO_CODE` reads back the tag whose wire value `BUILD_SDO` put in byte 0 (R51, R105, R111). -/
theorem svcTag_sdoCode_of_wire {tag : BitVec 3} {wire : Byte} {len : LenPort} (hlen : len ≠ 0)
    (h : svcWireOfTag tag = some wire) : svcTag (sdoCode len wire) = tag := by
  obtain ⟨c, hc, hwire⟩ := Option.bind_eq_some_iff.mp h
  rw [sdoCode_of_wire hlen hwire, svcTag_of_svcOfTag hc]

/-- The extractors read the operands of `BUILD_SDO` back from the frame it makes (R111). -/
theorem clsOutputs_sdoWord {svc : BitVec 3} {wire : Byte} (h : svcWireOfTag svc = some wire) (id : CanId)
    (index : BitVec 16) (sub : Byte) :
    (clsOutputs ⟨id, 8, sdoWord wire index sub⟩).svc = svc ∧
      (clsOutputs ⟨id, 8, sdoWord wire index sub⟩).index = index ∧
      (clsOutputs ⟨id, 8, sdoWord wire index sub⟩).sub = sub := by
  have hlane : ∀ i < 8, byteLane (sdoWord wire index sub) i = (sdoBytes wire index sub).getD i 0 :=
    fun _ => byteLane_sdoWord wire index sub
  have hindex : index.extractLsb' 8 8 ++ index.extractLsb' 0 8 = index :=
    (BitVec.extractLsb'_append_extractLsb'_eq_extractLsb' rfl).trans BitVec.extractLsb'_eq_self
  simp only [clsOutputs, sdoIndex_eq, hlane 0 (by decide), hlane 1 (by decide), hlane 2 (by decide),
    hlane 3 (by decide)]
  exact ⟨svcTag_sdoCode_of_wire (by decide) h, hindex, rfl⟩

/-- A category code that one predicate alone has is given exactly where that predicate matches (R99,
R100). -/
theorem categoryOf_matchVector_eq_iff {id : CanId} {k : Nat} (hne : categoryCode k ≠ 0)
    (honce : ∀ j < 14, categoryCode j = categoryCode k → j = k) :
    categoryOf (matchVector id) = categoryCode k ↔ (matchVector id).getLsbD k = true := by
  refine ⟨fun hcat => ?_, categoryOf_matchVector⟩
  obtain ⟨hmatch, hmap, -⟩ := followsIdentifierMap id
  rw [hmap] at hcat
  rcases identifierMap_isMapRow id.toNat with hrow | ⟨j, hj, hrow⟩
  · rw [hrow] at hcat
    exact absurd hcat.symm hne
  · rw [hrow] at hcat
    obtain rfl := honce j hj hcat
    simp [hmatch, hrow, hj]

/-- The category is SDO_REQ exactly for identifiers 0x600 to 0x67F (R39, R96). -/
theorem categoryOf_eq_sdoReq_iff (id : CanId) :
    categoryOf (matchVector id) = 4 ↔ 0x600 ≤ id.toNat ∧ id.toNat ≤ 0x67F := by
  have hbit : (matchVector id).getLsbD 12 = predSdoreq id := matchVector_getLsbD id (by decide)
  calc categoryOf (matchVector id) = 4
    _ ↔ (matchVector id).getLsbD 12 = true :=
      categoryOf_matchVector_eq_iff (k := 12) (by decide) (by decide)
    _ ↔ id.setWidth 12 &&& 0xF80 = 0x600 := by rw [hbit]; exact idMatches_iff
    _ ↔ id.extractLsb' 7 4 = 0b1100 := setWidth_and_F80_eq_iff id 0b1100
    _ ↔ _ := functionCode_eq_iff id 0b1100

/-- A frame on ENC's outputs is wired to CLS's inputs (R130). -/
theorem loopBack_of_valid {s : State} (h : s.tx.valid = 1) :
    loopBack s = some (presentRx ⟨s.tx.id, s.tx.len, s.tx.data⟩ s) := if_pos h

/-- Settles O35: ENC drives the word of R57 (`resultPorts_buildSdo_of_wire`), the wires present it to CLS,
and there the operands are read back (`clsOutputs_sdoWord`). -/
theorem buildThenExtract : Obligations.BuildThenExtract := by
  unfold Obligations.BuildThenExtract
  intro s hsel hop htag
  obtain ⟨wire, hw⟩ := Option.isSome_iff_exists.mp
    ((svcWireOfTag_isSome s.req.enc.svc).trans (decide_eq_true htag))
  have htx : (settle s.req).tx =
      encProduced s.req.enc.id 8 (sdoWord wire s.req.enc.index s.req.enc.sub) := by
    rw [settle_tx, encOutputs, encResult_of_op_one hop, resultPorts_buildSdo_of_wire hw]
  have hvalid : (settle s.req).tx.valid = 1 := by rw [htx]; rfl
  refine ⟨_, _, _, step_enc hsel, loopBack_of_valid hvalid, step_cls rfl, ?_⟩
  rw [settle_cls, presentRx_req_rx, htx]
  obtain ⟨hsvc, hindex, hsub⟩ := clsOutputs_sdoWord hw s.req.enc.id s.req.enc.index s.req.enc.sub
  exact ⟨hsvc, hindex, hsub, categoryOf_eq_sdoReq_iff s.req.enc.id⟩

end Sys2Proof.Machine
end

section
/-! The exceptions of the block (60_exceptions.md R113, R114): which requests raise which cause, and what
stands on the ports when they do. -/

namespace Sys2Proof.Machine

/-- A service tag without a wire value is 0 or above 4 (R50, R69). -/
theorem svcWireOfTag_eq_none_iff {tag : BitVec 3} :
    svcWireOfTag tag = none ↔ tag.toNat = 0 ∨ 4 < tag.toNat := by
  rw [← Option.not_isSome_iff_eq_none, svcWireOfTag_isSome, decide_eq_true_iff]
  omega

/-- A command tag without a wire value is above 4 (R52, R70). -/
theorem nmtWire_eq_none_iff {w : NmtWires} {tag : BitVec 4} : nmtWire w tag = none ↔ 4 < tag.toNat := by
  rw [← Option.not_isSome_iff_eq_none, nmtWire_isSome, decide_eq_true_iff]
  omega

/-- `BUILD_GENERIC` raises `BAD_LEN` alone, on a length outside 1 to 8 (R68, R113). -/
theorem buildGeneric_eq_invalid_iff {id : CanId} {n : LenPort} {d : DataPort} {c : Cause} :
    buildGeneric id n d = .invalid c ↔ c = .badLen ∧ (n.toNat = 0 ∨ 8 < n.toNat) := by
  by_cases hn : 1 ≤ n.toNat ∧ n.toNat ≤ 8
  · have hlen : ¬ (n.toNat = 0 ∨ 8 < n.toNat) := by omega
    simp [buildGeneric_of_legal id hn, hlen]
  · have hlen : n.toNat = 0 ∨ 8 < n.toNat := by omega
    rw [buildGeneric_of_illegal id hn, BuildResult.invalid.injEq, and_iff_left hlen, eq_comm]

/-- `BUILD_SDO` raises `BAD_SVC` alone, on a tag outside 1 to 4 (R69, R113). -/
theorem buildSdo_eq_invalid_iff {svc : BitVec 3} {id : CanId} {index : BitVec 16} {sub : Byte} {c : Cause} :
    buildSdo svc id index sub = .invalid c ↔ c = .badSvc ∧ (svc.toNat = 0 ∨ 4 < svc.toNat) := by
  rw [← svcWireOfTag_eq_none_iff]
  cases hw : svcWireOfTag svc with
  | none => simp [buildSdo_of_no_wire hw, eq_comm]
  | some wire => simp [buildSdo_of_wire hw]

/-- `BUILD_NMT` raises `BAD_CMD` alone, on a tag above 4 (R70, R113). -/
theorem buildNmt_eq_invalid_iff {w : NmtWires} {cmd : BitVec 4} {node : Byte} {c : Cause} :
    buildNmt w cmd node = .invalid c ↔ c = .badCmd ∧ 4 < cmd.toNat := by
  rw [← nmtWire_eq_none_iff (w := w)]
  cases hw : nmtWire w cmd with
  | none => simp [buildNmt_of_no_wire hw, eq_comm]
  | some wire => simp [buildNmt_of_wire hw]

/-- The condition of each cause, from the table of R113. -/
def CauseCondition (q : EncReq) : Cause → Prop
  | .badLen => q.op = 0 ∧ (q.len.toNat = 0 ∨ 8 < q.len.toNat)
  | .badCmd => q.op = 2 ∧ 4 < q.cmd.toNat
  | .badSvc => q.op = 1 ∧ (q.svc.toNat = 0 ∨ 4 < q.svc.toNat)
  | .badOp => q.op = 3

/-- ENC raises a cause exactly under its condition: the selected operation raises its own cause alone. -/
theorem encResult_eq_invalid_iff {q : EncReq} {c : Cause} :
    encResult q = .invalid c ↔ CauseCondition q c := by
  rcases encOp_cases q.op with h | h | h | h
  · rw [encResult_of_op_zero h, buildGeneric_eq_invalid_iff]
    cases c <;> simp [CauseCondition, h]
  · rw [encResult_of_op_one h, buildSdo_eq_invalid_iff]
    cases c <;> simp [CauseCondition, h]
  · rw [encResult_of_op_two h, buildNmt_eq_invalid_iff]
    cases c <;> simp [CauseCondition, h]
  · rw [encResult_of_op_three h]
    cases c <;> simp [CauseCondition, h]

/-- No cause has the code 0, which `tx_err` shows beside a frame (R54). -/
theorem causeCode_ne_zero (c : Cause) : causeCode c ≠ 0 := by
  cases c <;> decide

/-- The ports show a refusal exactly when the result is one, under its code (R71, R114). -/
theorem resultPorts_eq_encRefused_iff {r : BuildResult} {code : BitVec 3} :
    resultPorts r = encRefused code ↔ ∃ c, code = causeCode c ∧ r = .invalid c := by
  cases r with
  | frame f => simp [framePorts, encRefused]
  | invalid c => simp [invalidPorts, encRefused, eq_comm]

/-- A statement about some cause, cause by cause in the order of their codes (R54, R113). -/
theorem exists_cause_iff {p : Cause → Prop} :
    (∃ c, p c) ↔ p .badLen ∨ p .badCmd ∨ p .badSvc ∨ p .badOp := by
  constructor
  · rintro ⟨c, hc⟩
    cases c <;> simp [hc]
  · rintro (h | h | h | h) <;> exact ⟨_, h⟩

/-- An evaluation of ENC answers the block with given ENC outputs exactly when they are those of its
request (R13, R67). -/
theorem step_enc_eq_next_iff {s : State} (hsel : s.req.sel = .encOp) {p : EncPorts} :
    step s = .next { reference s.req with tx := p } ↔ encOutputs s.req.enc = p := by
  rw [step_enc hsel, settledIsReference, encOutputs_eq_encReference]
  simp [reference]

/-- Settles O11: a step of ENC leaves the ports of its result, a refusal exactly under the condition of its
cause (`encResult_eq_invalid_iff`); the other outputs are those of the port tables. -/
theorem invalidCauses : Obligations.InvalidCauses := by
  unfold Obligations.InvalidCauses
  refine ⟨fun s code hsel => ?_, fun s hsel => ?_, fun s hunit => ?_⟩
  · calc
      _ ↔ ∃ c, code = causeCode c ∧ CauseCondition s.req.enc c := exists_cause_iff.symm
      _ ↔ ∃ c, code = causeCode c ∧ encResult s.req.enc = .invalid c := by
        simp only [encResult_eq_invalid_iff]
      _ ↔ encOutputs s.req.enc = encRefused code := resultPorts_eq_encRefused_iff.symm
      _ ↔ _ := (step_enc_eq_next_iff hsel).symm
  · refine ⟨_, step_enc hsel, clsOutputs_eq_clsReference _, ?_⟩
    rw [settle_tx, encOutputs]
    cases encResult s.req.enc with
    | frame f => exact .inl ⟨rfl, rfl⟩
    | invalid c => exact .inr ⟨rfl, causeCode_ne_zero c⟩
  · exact ⟨_, step_cls hunit, encOutputs_eq_encReference _⟩

end Sys2Proof.Machine
end

section
/-! The block at reset is the block as all-zero inputs make it, and an evaluation leaves it so (R27,
R125; log entries 3, 4). -/

namespace Sys2Proof.Machine

/-- The reset outputs, written out as literals in the model, are what the operations drive for all-zero
inputs (R125). -/
theorem settle_zero : settle Request.zero = State.reset := by decide

/-- The use that stands at reset, an evaluation of ENC, leaves the block as it is (R28). -/
theorem step_reset : step State.reset = .next State.reset := by
  rw [step_enc (s := State.reset) rfl]
  exact congrArg _ settle_zero

/-- Settles O42: the block as any inputs make it is settled, all-zero inputs included. -/
theorem resetIsSettled : Obligations.ResetIsSettled := by
  unfold Obligations.ResetIsSettled
  rw [← settle_zero]
  exact settled_settle _

/-- Settles O44: reset is what a step from reset answers, and what a step answers is legal (O45). -/
theorem resetOutputsLegal : Obligations.ResetOutputsLegal := by
  unfold Obligations.ResetOutputsLegal
  exact stepKeepsOutputsLegal _ _ step_reset

end Sys2Proof.Machine
end
